-- ==== Sys2Proof/Word.lean ====
section
/-! DEFINITION. The words of the MX-N9: bytes, 64-bit management words, the indices of its blocks, and sparse tables. -/

namespace Sys2Proof

/-- A byte; every multi-byte field is stored least significant byte first (R12). -/
abbrev Byte := BitVec 8

/-- A byte string, lowest address first. -/
abbrev Bytes := List (BitVec 8)

/-- A management word (R781) or a scalar counter (R320). -/
abbrev Word := BitVec 64

/-- A logical Room, RM00 to RM95 (00, Names). -/
abbrev RoomId := Fin 96

/-- A Wing, W0 to W3. -/
abbrev WingId := Fin 4

/-- A Cellar, C0 to C3. -/
abbrev CellarId := Fin 4

/-- An HBM4E stack, 0 to 7; Cellar Cn serves stacks 2n and 2n + 1 (R17). -/
abbrev StackId := Fin 8

/-- A Porch, P0 or P1. -/
abbrev PorchId := Fin 2

/-- A package port, 0 to 31 (R578). -/
abbrev PortId := Fin 32

/-- A sparse table of `w`-bit entries: keys strictly rising, and no entry equal to what an unlisted key reads as
(zero). Pantries, HBM, register files, Hatches and stores are held so. -/
abbrev SMap (w : Nat) := List (Nat × BitVec w)

end Sys2Proof
end

