-- ==== Sys2Proof/Syntax.lean ====
section
/-! DEFINITION. The commands of the block: one constructor for every row of spec/opcode_table.json, with its operands. -/

namespace Sys2Proof

/-- A command of a unit as it stands in its queue: its 128 bits (R307, R311) and the value its predicate had in the
issue gc of its bundle (R314). -/
structure QCmd where
  word : BitVec 128
  pred : Bool
  deriving DecidableEq, Repr, Inhabited

/-- What one attached NVM device answers: its configuration image and its PUF helper record (R693, R695). -/
structure Nvm where
  image  : Bytes
  helper : Bytes
  deriving DecidableEq, Repr, Inhabited

/-- The outcome of the bring-up steps of one fabric port (R622): whether training, FEC lock, framing and calibration
passed, what the partner sent in step 4, the calibrated one-way delay and the round trip in rounds (R619, R623). -/
structure PortBringUp where
  trained  : Bool
  partner  : BitVec 64
  partDim  : BitVec 2
  partDir  : Bool
  mirror   : Bool
  delay    : BitVec 16
  rtt      : Nat
  deriving DecidableEq, Repr, Inhabited

/-- What the device measures or reads while it boots (R702): the PUF array, both NVM devices, the rail-good inputs of
SEL 4 to 7 and of the Wing rails, the self-test results of the Rooms, the training results of the stacks, the fabric
ports and the Palbo link. -/
structure BootIn where
  puf      : Bytes
  nvmA     : Option Nvm
  nvmB     : Option Nvm
  railsOk  : BitVec 4
  wingsOk  : Bool
  roomPass : Vector (BitVec 26) 4
  trained  : BitVec 8
  ports    : Vector PortBringUp 32
  palboUp  : Bool
  deriving DecidableEq, Repr, Inhabited

/-- Who makes a management access (R724 ORIGIN): the companion, a fabric rank, the debug port, the board port, or the
Threshold itself. -/
inductive Origin
  | self
  | companion
  | rank (n : BitVec 12)
  | debug
  | board
  deriving DecidableEq, Repr, Inhabited

/-- A Stairwell message as it reaches the Threshold (R584, R796, R797): the origin's rank, whether it was a broadcast, the
RT_MODE bit of a START, its SEQ, its words, and the bytes of a START's or a response's payload. -/
structure StwMsg where
  src  : BitVec 12
  bcast : Bool
  rtm  : Bool
  seq  : BitVec 16
  a    : BitVec 64
  b    : BitVec 64
  c    : BitVec 64
  data : Bytes
  deriving DecidableEq, Repr, Inhabited

/-- A slot as a port receives it (R582, R584): its frame slot, whether its FEC codeword was uncorrectable, its 16-byte
header and its payload. -/
structure Slot where
  frame   : Fin 64
  bad     : Bool
  header  : BitVec 128
  payload : Bytes
  deriving DecidableEq, Repr, Inhabited

/-- A mirror window record (R763). -/
structure MirrorRec where
  stick : BitVec 64
  w     : BitVec 16
  lroom : BitVec 7
  lines : BitVec 12
  crc   : BitVec 64
  tick  : BitVec 64
  deriving DecidableEq, Repr, Inhabited

/-- An entry of a Room's mirror log (R766). -/
structure MirrorLogEntry where
  tag    : BitVec 16
  offset : BitVec 10
  output : BitVec 2
  crc    : BitVec 32
  deriving DecidableEq, Repr, Inhabited

/-- The two kinds of Cellar engine (R491). -/
inductive EngineKind
  | transpose
  | gatherScatter
  deriving DecidableEq, Repr, Inhabited

/-- The header fields of a companion message that its answer depends on (R653): request identifier, retried mark and
poison mark. -/
structure PalboHdr where
  rid     : BitVec 8
  retried : Bool
  poison  : Bool
  deriving DecidableEq, Repr, Inhabited

/-- The commands: every row of the table of operations and events, in the table's order. -/
inductive Instr
  /-- R702: PORST# is released. -/
  | powerUp (b : BootIn)
  /-- R830: RG0 to RG3 assert for the BOOT_M setpoint. -/
  | bootRailWaitDone
  /-- R832: PORST# is held low for `lowRc` rc. -/
  | powerDown (lowRc : Nat)
  /-- R827: input RGn of SEL `sel` changes to `level`. -/
  | railGoodChange (sel : Fin 8) (level : Bool)
  /-- R103. -/
  | refLoss
  /-- R107. -/
  | refReturn
  /-- R109. -/
  | holdoverExpired
  /-- R110: the oscillator counted `count` periods over 10,000 rc. -/
  | oscCalibrate (count : Nat)
  /-- R123: the sensor named by the word of R842 reads `temp` (1/16 of a degree C). -/
  | thermTrip (sensor : BitVec 16) (temp : BitVec 16)
  /-- R120: the Wing's hottest sensor (1/16 of a degree C) and its power estimate over the past 100 rc (mW). -/
  | throttleEval (w : WingId) (temp : BitVec 16) (powerMw : Nat)
  /-- R88. -/
  | droopDetect (w : WingId)
  /-- R62. -/
  | tickBoundary
  /-- R631. -/
  | jobFirstBoundary
  /-- R60. -/
  | wingTickComplete (w : WingId)
  /-- R95 step 4: `locked` says whether the PLL has locked. -/
  | wingClockRestart (w : WingId) (locked : Bool)
  /-- R100. -/
  | wingRelockFail (w : WingId)
  /-- R310: the Room's next bundle issues. -/
  | bundleIssue (r : RoomId)
  /-- R354. -/
  | wingFreezeEnd (w : WingId)
  /-- R357. -/
  | freezeTimeout (w : WingId)
  | snop (r : RoomId) (c : QCmd)
  | sset (r : RoomId) (c : QCmd)
  | sadd (r : RoomId) (c : QCmd)
  | ssub (r : RoomId) (c : QCmd)
  | smul (r : RoomId) (c : QCmd)
  | sand (r : RoomId) (c : QCmd)
  | sor (r : RoomId) (c : QCmd)
  | sshr (r : RoomId) (c : QCmd)
  | scmp (r : RoomId) (c : QCmd)
  | pset (r : RoomId) (c : QCmd)
  | qdepth (r : RoomId) (c : QCmd)
  | svget (r : RoomId) (c : QCmd)
  | dset (r : RoomId) (c : QCmd)
  | loop (r : RoomId) (c : QCmd)
  | tend (r : RoomId) (c : QCmd)
  | dwfetch (r : RoomId) (c : QCmd)
  | dwput (r : RoomId) (c : QCmd)
  | dwhalt (r : RoomId) (c : QCmd)
  | xpose (r : RoomId) (c : QCmd)
  | gather (r : RoomId) (c : QCmd)
  | scatter (r : RoomId) (c : QCmd)
  | pown (r : RoomId) (c : QCmd)
  | pgate (r : RoomId) (c : QCmd)
  | pwake (r : RoomId) (c : QCmd)
  | ptagclr (r : RoomId) (c : QCmd)
  /-- R115: the waking bank becomes usable. -/
  | pantryBankUsable (r : RoomId) (bank : Fin 12)
  | mload (r : RoomId) (c : QCmd)
  /-- R220: the loaded shadow buffers become READY. -/
  | mloadTileReady (r : RoomId)
  | mswap (r : RoomId) (c : QCmd)
  | mm128 (r : RoomId) (c : QCmd)
  | mmt (r : RoomId) (c : QCmd)
  | mm64p (r : RoomId) (c : QCmd)
  | mm64q (r : RoomId) (c : QCmd)
  /-- R233. -/
  | hatchSlotToVector (r : RoomId) (slot : Fin 4)
  | vld (r : RoomId) (c : QCmd)
  | vst (r : RoomId) (c : QCmd)
  | vhld (r : RoomId) (c : QCmd)
  | vhst (r : RoomId) (c : QCmd)
  | vhrel (r : RoomId) (c : QCmd)
  | vrng (r : RoomId) (c : QCmd)
  | vchain (r : RoomId) (c : QCmd)
  | vadd (r : RoomId) (c : QCmd)
  | vsub (r : RoomId) (c : QCmd)
  | vmul (r : RoomId) (c : QCmd)
  | vfma (r : RoomId) (c : QCmd)
  | vmax (r : RoomId) (c : QCmd)
  | vmin (r : RoomId) (c : QCmd)
  | vabs (r : RoomId) (c : QCmd)
  | vneg (r : RoomId) (c : QCmd)
  | vcmp (r : RoomId) (c : QCmd)
  | vsel (r : RoomId) (c : QCmd)
  | viadd (r : RoomId) (c : QCmd)
  | visub (r : RoomId) (c : QCmd)
  | vimul (r : RoomId) (c : QCmd)
  | vand (r : RoomId) (c : QCmd)
  | vor (r : RoomId) (c : QCmd)
  | vxor (r : RoomId) (c : QCmd)
  | vshl (r : RoomId) (c : QCmd)
  | vshr (r : RoomId) (c : QCmd)
  | vsar (r : RoomId) (c : QCmd)
  | vimax (r : RoomId) (c : QCmd)
  | vimin (r : RoomId) (c : QCmd)
  | vrnd (r : RoomId) (c : QCmd)
  | vf2i (r : RoomId) (c : QCmd)
  | vi2f (r : RoomId) (c : QCmd)
  | vrot (r : RoomId) (c : QCmd)
  | vbcast (r : RoomId) (c : QCmd)
  | vrsum (r : RoomId) (c : QCmd)
  | vrmax (r : RoomId) (c : QCmd)
  | vrmin (r : RoomId) (c : QCmd)
  | vscan (r : RoomId) (c : QCmd)
  | vcrv (r : RoomId) (c : QCmd)
  | drain (r : RoomId) (c : QCmd)
  | ocopy (r : RoomId) (c : QCmd)
  | omsg (r : RoomId) (c : QCmd)
  | oinc (r : RoomId) (c : QCmd)
  | linit (r : RoomId) (c : QCmd)
  | ladd (r : RoomId) (c : QCmd)
  | lwatch (r : RoomId) (c : QCmd)
  | lbar (r : RoomId) (c : QCmd)
  /-- R532. -/
  | watchEnd (r : RoomId) (wid : Fin 8)
  /-- R533. -/
  | watchTimeout (r : RoomId) (wid : Fin 8)
  /-- R420: `busy` marks the banks the Gallery port uses in this gc (R419). -/
  | arrivalWrite (r : RoomId) (busy : BitVec 12)
  /-- R520, R522: the oldest arrival of the Room is an INC packet's latch arrival and is applied. -/
  | latchPacketArrival (r : RoomId)
  /-- R425, R499: a FULL line of a write-back request or a SCATTER is read. -/
  | writebackRead (r : RoomId) (busy : BitVec 12)
  /-- R434: `wfree` says whether the gc after the read is free for the write-back. -/
  | pantryScrubStep (r : RoomId) (bank : Fin 12) (wfree : Bool)
  /-- R441. -/
  | dwRequestIssue (r : RoomId)
  /-- R442. -/
  | dwRequestWithheld (r : RoomId)
  /-- R444: the return of request `id` enters the arrival buffer. -/
  | dwFetchReturn (r : RoomId) (id : Nat)
  /-- R444: the Cellar acknowledges write-back request `id`. -/
  | dwWritebackAck (r : RoomId) (id : Nat)
  /-- R472: request `id` enters its stack queue. -/
  | hbmRequestArrive (id : Nat)
  /-- R473. -/
  | hbmRequestBegin (st : StackId)
  /-- R476. -/
  | fixedRefreshWindow
  /-- R478. -/
  | extraRefreshWindow (st : StackId)
  /-- R479. -/
  | refreshLevelEval (st : StackId)
  /-- R465: the stack's temperature (1/16 of a degree C). -/
  | stackTempRead (st : StackId) (temp : BitVec 12)
  /-- R484: the scrubber reads the next codeword of the stack. -/
  | hbmScrubStep (st : StackId)
  /-- R485. -/
  | scrubBehind (c : CellarId)
  /-- R492: `comp` is what the companion answers to the engine's reads of its memory. -/
  | engineOpStart (c : CellarId) (e : EngineKind) (comp : SMap 8)
  /-- R501. -/
  | engineOpComplete (c : CellarId) (e : EngineKind)
  /-- R676: monitor `n` fires; `card` is what the reads of lines 0 to 2 return, `peersReady` whether every rank of the
  job is LOADED. -/
  | monHit (n : Fin 64) (h : PalboHdr) (card : Bytes) (peersReady : Bool)
  /-- R676: the card is read again after 100 rc. -/
  | cardCrcReread (card : Bytes) (peersReady : Bool)
  | cardNop
  /-- R386. -/
  | cardLoad
  | cardStart
  | cardStop
  | cardQuiesce
  | cardFreeze
  | cardUnload
  | cardMode
  /-- R145: `comp` is what the companion returns for a table in its memory. -/
  | cardTable (comp : SMap 8)
  | cardAttest
  /-- R666. -/
  | cRd (h : PalboHdr) (addr : BitVec 48) (multi : Bool)
  /-- R667: `data` holds the body or bodies of the message. -/
  | cWr (h : PalboHdr) (addr : BitVec 48) (multi : Bool) (mask : BitVec 8) (data : Bytes)
  /-- R661: the DATA for the device request with this identifier. -/
  | palboData (h : PalboHdr) (data : Bytes)
  /-- R662. -/
  | palboCmp (h : PalboHdr)
  /-- R658: the companion advertises REQ and MON credits. -/
  | palboCreditAdvertise (req mon : Nat)
  /-- R656: a received flit acknowledges up to `aseq` and requests a replay when `nak` is set; `bad` says that the flit
  itself must be discarded and a replay requested. -/
  | palboFlitReplay (aseq : BitVec 8) (nak : Bool) (bad : Bool)
  /-- R686 code 0x07. -/
  | palboRspTimeout (rid : BitVec 8)
  /-- R688. -/
  | palboFenced
  /-- R684. -/
  | doorplateSend
  /-- R672: a write of word 0 of PALBO_HOST_CFG with ENABLE 1. -/
  | hostCfgEnable (o : Origin) (data : BitVec 64)
  /-- R672: a write of word 0 of PALBO_HOST_CFG with ENABLE 0. -/
  | hostCfgDisable (o : Origin) (data : BitVec 64)
  /-- R617. -/
  | portSlotReceive (p : PortId) (s : Slot)
  /-- R621. -/
  | fabLinkLost (p : PortId)
  /-- R597: the next packet of Porch `p` in this round; `free` marks the ports ([15:0]) and bridge lanes ([23:16]) still
  free. -/
  | routerPacketRoute (p : PorchId) (free : BitVec 24)
  /-- R614. -/
  | departureInject (r : RoomId) (free : BitVec 24)
  /-- R606. -/
  | packetEject (p : PorchId)
  /-- R612: Porch `p` sends the ACK of the entry of this source. -/
  | ackSend (p : PorchId) (srank : BitVec 12) (sroom : BitVec 7) (droom : BitVec 7)
  /-- R613: an ACK for Room `r` from a destination rank and Room. -/
  | ackReceive (r : RoomId) (drank : BitVec 12) (droom : BitVec 7) (count : BitVec 8) (retried : Bool)
  /-- R544: the oldest arrival of the Room is a MSG record. -/
  | mailslotRecordArrival (r : RoomId)
  /-- R551: a CREDIT packet for the Room from the Mailslot's Room. -/
  | creditReturnArrival (r : RoomId) (srank : BitVec 12) (sroom : BitVec 7) (mslot : BitVec 2) (units : BitVec 13)
      (retried : Bool)
  /-- R561. -/
  | creditProbe (r : RoomId)
  /-- R638: the head of the Porch's contribution queue. -/
  | collContribution (p : PorchId)
  /-- R639: a COLL_UP line: context, instance, line index, sender rank, payload. -/
  | collUp (p : PorchId) (ctx : BitVec 4) (inst : BitVec 8) (idx : BitVec 6) (srank : BitVec 12) (data : Bytes)
  /-- R639: a COLL_DN line. -/
  | collDn (p : PorchId) (ctx : BitVec 4) (inst : BitVec 8) (idx : BitVec 6) (data : Bytes)
  /-- R640. -/
  | collInstanceComplete (p : PorchId) (ctx : BitVec 4) (inst : BitVec 8)
  | stwStop (m : StwMsg)
  | stwQuiesce (m : StwMsg)
  | stwFreeze (m : StwMsg)
  | stwStart (m : StwMsg)
  | stwAlign (m : StwMsg) (port : PortId)
  | stwTickCheck (m : StwMsg)
  | stwOutOfStep (m : StwMsg)
  | stwInStep (m : StwMsg)
  | stwFaulted (m : StwMsg)
  | stwDrainQuery (m : StwMsg)
  | stwDrainReport (m : StwMsg)
  /-- R592: 1,000 rc after the first collection. -/
  | mapDrainCheck
  | stwMapOpen (m : StwMsg)
  | stwMapClose (m : StwMsg)
  | stwStateRead (m : StwMsg)
  | stwMgmtRead (m : StwMsg)
  | stwMgmtWrite (m : StwMsg)
  | stwProbe (m : StwMsg)
  | stwResponse (m : StwMsg)
  | goStop (o : Origin)
  | goQuiesce (o : Origin)
  | goFreeze (o : Origin)
  /-- R784: `hw` marks the bits of the word that hardware sets in the same cycle (R16, R753). -/
  | mgmtRegWrite (o : Origin) (addr : BitVec 48) (data : BitVec 64) (hw : BitVec 64)
  /-- R786. -/
  | mgmtReadCapture (o : Origin) (addr : BitVec 48)
  /-- R734. -/
  | gbReadMarkWrite (o : Origin) (data : BitVec 64)
  /-- R750. -/
  | faultReadMarkWrite (o : Origin) (data : BitVec 64)
  /-- R768: a write of word 0 of THRESH_DEBUG_CTL with DEBUG 1. -/
  | debugEnter (o : Origin) (data : BitVec 64)
  /-- R768: a write of word 0 of THRESH_DEBUG_CTL with DEBUG 0. -/
  | debugLeave (o : Origin) (data : BitVec 64)
  /-- R758: a write of word 0 of THRESH_MIRROR_CTL; `b` is what the bring-up of the port finds (R759). -/
  | mirrorEnableWrite (o : Origin) (data : BitVec 64) (b : PortBringUp)
  /-- R775: a write of word 0 of a Room's ROOM_TRACE_CTL. -/
  | traceCtlWrite (o : Origin) (r : RoomId) (data : BitVec 64)
  /-- R787: a write of word 0 (`hi` false) or word 1 (`hi` true). -/
  | collEntryStage (o : Origin) (p : PorchId) (hi : Bool) (data : BitVec 64)
  /-- R787: a write of word 2. -/
  | collEntryCommit (o : Origin) (p : PorchId) (data : BitVec 64)
  /-- R788. -/
  | rankEntryWrite (o : Origin) (p : PorchId) (data : BitVec 64)
  /-- R591: a write of word 0 (`hi` false) or word 1 (`hi` true) of PORCH_RANK_CFG. -/
  | rankCfgWrite (o : Origin) (p : PorchId) (hi : Bool) (data : BitVec 64)
  /-- R793: the bytes of a private write that begins a read. -/
  | i3cReadRequest (b : Bytes)
  /-- R793: the bytes of a private write that begins a write. -/
  | i3cWriteRequest (b : Bytes)
  | i3cPrivateRead
  /-- R793: SETDASA to a static address. -/
  | i3cSetdasa (static dyn : BitVec 7)
  | i3cEntdaa (dyn : BitVec 7)
  /-- R794. -/
  | testMgmtRead (addr : BitVec 48)
  | testMgmtWrite (addr : BitVec 48) (data : BitVec 64)
  /-- R749. -/
  | faultReportArrive
  /-- R730. -/
  | guestbookAppend
  /-- R771. -/
  | smokeLogAppend
  /-- R763: the present window of the Room closes. -/
  | mirrorWindowClose (r : RoomId)
  /-- R764. -/
  | mirrorRecordReceive (m : MirrorRec)
  /-- R765. -/
  | mirrorStopTickReceive (stopTick : BitVec 64)
  /-- R766: the twin's log entries of the mismatching window, and whether its log still holds the whole window. -/
  | mirrorLogExchange (twin : List MirrorLogEntry) (whole : Bool)
  /-- R767: the slots that the port discards. -/
  | mirrorLinkLost (discarded : Nat)
  /-- R681. -/
  | jobDone
  /-- R711. -/
  | alwaysOnPowerLoss
  /-- R620: the bring-up of the retraining port ends; `aseq` are the last slots of the data and Stairwell series that
  its partner reports. -/
  | portRetrainingEnd (p : PortId) (b : PortBringUp) (aseq saseq : BitVec 8)
  /-- R656: retraining ends with the companion's credits and the last flit it reports. -/
  | palboRetrainingEnd (req mon : Nat) (aseq : BitVec 8)
  deriving DecidableEq, Repr

end Sys2Proof
end

