-- ==== Sys2Proof/Decode.lean ====
section
/-! DEFINITION. Words of the table of operations. -/

namespace Sys2Proof

/-- The command that a word spells by the table's bits: no row of the table gives bits, so no word spells one. [DESIGN CHOICE: log 87.] -/
def decodeTableWord (_nbits _w : Nat) : Option Instr := none

end Sys2Proof
end

