-- ==== Sys2Proof/Machine/Bits.lean ====
section
/-! DEFINITION. Bit fields, byte strings, sparse tables and list updates: the plain helpers of the model. -/

namespace Sys2Proof.Machine

/-- Bits [lo + len - 1 : lo] of a number. -/
def nbits (n lo len : Nat) : Nat := (n >>> lo) % 2 ^ len

/-- Bits [lo + len - 1 : lo] of a word (R11). -/
def field {w : Nat} (b : BitVec w) (lo len : Nat) : Nat := nbits b.toNat lo len

/-- Bit `i` of a word. -/
def bit {w : Nat} (b : BitVec w) (i : Nat) : Bool := b.getLsbD i

/-- `b` with bits [lo + len - 1 : lo] replaced by `v`. -/
def setField {w : Nat} (b : BitVec w) (lo len v : Nat) : BitVec w :=
  BitVec.ofNat w ((b.toNat - nbits b.toNat lo len * 2 ^ lo) + (v % 2 ^ len) * 2 ^ lo)

/-- A flag as a bit. -/
def b2n (b : Bool) : Nat := if b then 1 else 0

/-- `len`-bit two's complement. -/
def signed (n len : Nat) : Int := if n < 2 ^ (len - 1) then (n : Int) else (n : Int) - (2 ^ len : Nat)

/-- A number as `len` bits of two's complement. -/
def unsigned (i : Int) (len : Nat) : Nat := (i % ((2 ^ len : Nat) : Int)).toNat

/-- Saturating addition in `w` bits. -/
def satAdd {w : Nat} (a : BitVec w) (n : Nat) : BitVec w := BitVec.ofNat w (min (a.toNat + n) (2 ^ w - 1))

/-- The ceiling of a quotient. -/
def cdiv (a b : Nat) : Nat := (a + b - 1) / b

/-- The number whose bytes, least significant first, are `bs` (R12). -/
def leNat : Bytes → Nat
  | [] => 0
  | b :: bs => b.toNat + 256 * leNat bs

/-- The low `n` bytes of a number, least significant first (R12). -/
def leBytes : Nat → Nat → Bytes
  | 0, _ => []
  | n + 1, v => BitVec.ofNat 8 v :: leBytes n (v / 256)

/-- `len` bytes of `bs` from `off`, zero past its end. -/
def slice (bs : Bytes) (off len : Nat) : Bytes :=
  let t := (bs.drop off).take len
  t ++ List.replicate (len - t.length) 0

/-- The little-endian number in bytes [off, off + len) of `bs`. -/
def getLE (bs : Bytes) (off len : Nat) : Nat := leNat ((bs.drop off).take len)

/-- Bits [lo + len - 1 : lo] of a record. -/
def recBits (bs : Bytes) (lo len : Nat) : Nat :=
  nbits (leNat ((bs.drop (lo / 8)).take ((lo + len + 7) / 8 - lo / 8))) (lo % 8) len

/-- Fields (low bit, width, value) packed into one number. -/
def pack (fs : List (Nat × Nat × Nat)) : Nat :=
  fs.foldl (fun a f => a + (f.2.2 % 2 ^ f.2.1) * 2 ^ f.1) 0

/-- A record of `n` bytes from its fields. -/
def packBytes (n : Nat) (fs : List (Nat × Nat × Nat)) : Bytes := leBytes n (pack fs)

/-- The entry of a sparse table, zero where none is listed. [DESIGN CHOICE: log 88.] -/
def sget {w : Nat} (m : SMap w) (k : Nat) : BitVec w :=
  match m with
  | [] => 0#w
  | (a, v) :: t => if a = k then v else if k < a then 0#w else sget t k

/-- The table with entry `k` equal to `v`; a zero entry is not listed. -/
def sput {w : Nat} (m : SMap w) (k : Nat) (v : BitVec w) : SMap w :=
  match m with
  | [] => if v = 0#w then [] else [(k, v)]
  | (a, u) :: t =>
    if k < a then (if v = 0#w then (a, u) :: t else (k, v) :: (a, u) :: t)
    else if k = a then (if v = 0#w then t else (a, v) :: t)
    else (a, u) :: sput t k v

/-- The table without the entries of keys [lo, hi). -/
def sclear {w : Nat} (m : SMap w) (lo hi : Nat) : SMap w :=
  m.filter (fun e => !(decide (lo ≤ e.1) && decide (e.1 < hi)))

/-- Entries k, k + 1, … written in order. -/
def sputList {w : Nat} (m : SMap w) (k : Nat) : List (BitVec w) → SMap w
  | [] => m
  | v :: vs => sputList (sput m k v) (k + 1) vs

/-- `n` entries from `k`. -/
def sgetList {w : Nat} (m : SMap w) (k n : Nat) : List (BitVec w) :=
  (List.range n).map (fun i => sget m (k + i))

/-- Keys strictly rising above `lo`, and no entry zero. -/
def swfFrom {w : Nat} (m : SMap w) (lo : Nat) : Bool :=
  match m with
  | [] => true
  | (a, v) :: t => decide (lo ≤ a) && decide (v ≠ 0#w) && swfFrom t (a + 1)

/-- The canonical form of a sparse table: keys strictly rising, no zero entry. -/
def swf {w : Nat} (m : SMap w) : Bool := swfFrom m 0

/-- Positions 0, 1, … paired with the entries. -/
def indexed {α : Type} (l : List α) : List (Nat × α) := (List.range l.length).zip l

/-- The indices below `n` for which `p` holds. -/
def indicesOf (n : Nat) (p : Nat → Bool) : List Nat := (List.range n).filter p

/-- The first entry for which `p` holds, changed by `f`. -/
def updFirst {α : Type} (p : α → Bool) (f : α → α) : List α → List α
  | [] => []
  | a :: t => if p a then f a :: t else a :: updFirst p f t

/-- The list without its first entry for which `p` holds. -/
def delFirst {α : Type} (p : α → Bool) : List α → List α
  | [] => []
  | a :: t => if p a then t else a :: delFirst p t

/-- Every entry equal to another is counted once: the list has no two equal entries. -/
def noDup (l : List Nat) : Bool :=
  match l with
  | [] => true
  | a :: t => !(t.contains a) && noDup t

end Sys2Proof.Machine
end

