-- ==== Sys2Proof/Machine/Values.lean ====
section
/-! DEFINITION. Values and their exact arithmetic (chapter 04): decoding of element formats, the one FP32 rounding,
conversions to narrower formats, block scales, the block sums of the matrix array and the Philox generator. -/

namespace Sys2Proof.Machine

/-- A value: NaN, a signed infinity, or (−1)^neg · m · 2^e with a signed zero when `m = 0` (R130, R164). -/
inductive Val
  | nan
  | inf (neg : Bool)
  | fin (neg : Bool) (m : Nat) (e : Int)
  deriving DecidableEq, Repr, Inhabited

/-- Which codes with exponent field all ones are special (R130, R131). -/
inductive FKind
  | ieee
  | e4m3
  | finite
  deriving DecidableEq, Repr, Inhabited

/-- The parameters of a floating-point format (R130, R154). -/
structure FFmt where
  ebits : Nat
  mbits : Nat
  bias  : Nat
  kind  : FKind
  deriving DecidableEq, Repr, Inhabited

def fp32 : FFmt := { ebits := 8, mbits := 23, bias := 127, kind := .ieee }
def fp16 : FFmt := { ebits := 5, mbits := 10, bias := 15, kind := .ieee }
def bf16 : FFmt := { ebits := 8, mbits := 7, bias := 127, kind := .ieee }
def fE5M2 : FFmt := { ebits := 5, mbits := 2, bias := 15, kind := .ieee }
def fE4M3 : FFmt := { ebits := 4, mbits := 3, bias := 7, kind := .e4m3 }
def fE3M2 : FFmt := { ebits := 3, mbits := 2, bias := 3, kind := .finite }
def fE2M3 : FFmt := { ebits := 2, mbits := 3, bias := 1, kind := .finite }
def fE2M1 : FFmt := { ebits := 2, mbits := 1, bias := 1, kind := .finite }
/-- The N8 internal float form (R154). -/
def fN8 : FFmt := { ebits := 5, mbits := 3, bias := 15, kind := .finite }

def FFmt.bits (f : FFmt) : Nat := 1 + f.ebits + f.mbits

/-- The exponent of the smallest subnormal (R130). -/
def FFmt.emin (f : FFmt) : Int := 1 - (f.bias : Int) - (f.mbits : Int)

/-- The largest finite magnitude m · 2^e (R130, R131). -/
def FFmt.maxFin (f : FFmt) : Nat × Int :=
  let top : Nat := 2 ^ f.ebits - 1
  match f.kind with
  | .ieee => (2 ^ (f.mbits + 1) - 1, ((top : Int) - 1 - (f.bias : Int)) - (f.mbits : Int))
  | .e4m3 => (2 ^ (f.mbits + 1) - 2, ((top : Int) - (f.bias : Int)) - (f.mbits : Int))
  | .finite => (2 ^ (f.mbits + 1) - 1, ((top : Int) - (f.bias : Int)) - (f.mbits : Int))

/-- The value of a code (R130 to R132). -/
def FFmt.decode (f : FFmt) (c : Nat) : Val :=
  let m := nbits c 0 f.mbits
  let e := nbits c f.mbits f.ebits
  let neg := nbits c (f.mbits + f.ebits) 1 = 1
  let top := 2 ^ f.ebits - 1
  let num : Val :=
    if e = 0 then .fin neg m f.emin
    else .fin neg (2 ^ f.mbits + m) ((e : Int) - (f.bias : Int) - (f.mbits : Int))
  match f.kind with
  | .ieee => if e = top then (if m = 0 then .inf neg else .nan) else num
  | .e4m3 => if e = top && m = 2 ^ f.mbits - 1 then .nan else num
  | .finite => num

/-- Is m₁ · 2^e₁ below m₂ · 2^e₂? -/
def magLt (m1 : Nat) (e1 : Int) (m2 : Nat) (e2 : Int) : Bool :=
  if e1 ≤ e2 then decide (m1 < m2 * 2 ^ (e2 - e1).toNat) else decide (m1 * 2 ^ (e1 - e2).toNat < m2)

/-- The code of the magnitude k · 2^q, which the format holds exactly (R130). -/
def FFmt.encodeMag (f : FFmt) (neg : Bool) (k : Nat) (q : Int) : Nat :=
  let s := b2n neg * 2 ^ (f.mbits + f.ebits)
  if k = 0 then s
  else
    let l := Nat.log2 k
    let ex : Int := (l : Int) + q
    let shl (sh : Int) : Nat := if 0 ≤ sh then k * 2 ^ sh.toNat else k / 2 ^ (-sh).toNat
    if ex < 1 - (f.bias : Int) then s + shl (q - f.emin)
    else s + (ex + (f.bias : Int)).toNat * 2 ^ f.mbits + (shl ((f.mbits : Int) - (l : Int)) - 2 ^ f.mbits)

/-- The canonical NaN (R134). -/
def FFmt.nanCode (f : FFmt) : Nat :=
  match f.kind with
  | .ieee => (2 ^ f.ebits - 1) * 2 ^ f.mbits + 2 ^ (f.mbits - 1)
  | .e4m3 => 0x7F
  | .finite => 0

def FFmt.infCode (f : FFmt) (neg : Bool) : Nat :=
  b2n neg * 2 ^ (f.mbits + f.ebits) + (2 ^ f.ebits - 1) * 2 ^ f.mbits

/-- The rounding of a conversion (R171): to nearest even, toward zero, or stochastic with the low 16 bits of a random
word (R181). -/
inductive Rnd
  | rne
  | rz
  | sr (r : BitVec 32)
  deriving DecidableEq, Repr, Inhabited

/-- A rational n / d (d > 0) as a multiple of 2^q, rounded. -/
def roundAt (md : Rnd) (n d : Nat) (q : Int) : Nat :=
  let n' := if q < 0 then n * 2 ^ (-q).toNat else n
  let d' := if q < 0 then d else d * 2 ^ q.toNat
  let lo := n' / d'
  let rem := n' % d'
  match md with
  | .rz => lo
  | .rne => if 2 * rem > d' || (2 * rem == d' && lo % 2 == 1) then lo + 1 else lo
  | .sr r => if rem * 65536 / d' + field r 0 16 ≥ 65536 then lo + 1 else lo

/-- floor(log2(n / d)) of a positive rational. -/
def floorLog2 (n d : Nat) : Int :=
  let a : Int := (Nat.log2 n : Int) - (Nat.log2 d : Int)
  let ge : Bool := if a < 0 then decide (d ≤ n * 2 ^ (-a).toNat) else decide (d * 2 ^ a.toNat ≤ n)
  if ge then a else a - 1

/-- A positive rational rounded to `mbits` of mantissa with least exponent `emin`, the exponent range unbounded above
(R173, R176): k and q of k · 2^q. -/
def roundQ (mbits : Nat) (emin : Int) (md : Rnd) (n d : Nat) : Nat × Int :=
  if n = 0 then (0, emin)
  else
    let q0 := floorLog2 n d - (mbits : Int)
    let q := if q0 < emin then emin else q0
    (roundAt md n d q, q)

/-- The rational of a finite magnitude. -/
def ratOf (m : Nat) (e : Int) : Nat × Nat :=
  if 0 ≤ e then (m * 2 ^ e.toNat, 1) else (m, 2 ^ (-e).toNat)

/-- A finite rational value rounded once to FP32 with round to nearest even, and whether it overflowed (R161, R165). -/
def roundF32Q (neg : Bool) (n d : Nat) : Val × Bool :=
  let r := roundQ fp32.mbits fp32.emin .rne n d
  if magLt fp32.maxFin.1 fp32.maxFin.2 r.1 r.2 then (.inf neg, true) else (.fin neg r.1 r.2, false)

/-- A value rounded once to FP32, and whether a finite one overflowed. -/
def roundF32 (v : Val) : Val × Bool :=
  match v with
  | .fin neg m e => roundF32Q neg (ratOf m e).1 (ratOf m e).2
  | v => (v, false)

/-- The FP32 code of a value that FP32 holds. -/
def Val.toF32 (v : Val) : BitVec 32 :=
  match v with
  | .nan => BitVec.ofNat 32 fp32.nanCode
  | .inf neg => BitVec.ofNat 32 (fp32.infCode neg)
  | .fin neg m e =>
    let r := roundQ fp32.mbits fp32.emin .rne (ratOf m e).1 (ratOf m e).2
    BitVec.ofNat 32 (fp32.encodeMag neg r.1 r.2)

def ofF32 (b : BitVec 32) : Val := fp32.decode b.toNat

def Val.isNan : Val → Bool
  | .nan => true
  | _ => false

def Val.isInf : Val → Bool
  | .inf _ => true
  | _ => false

def Val.isZero : Val → Bool
  | .fin _ 0 _ => true
  | _ => false

def Val.isNeg : Val → Bool
  | .nan => false
  | .inf n => n
  | .fin n _ _ => n

/-- The exact value as an integer multiple of 2^e. -/
def intAt (neg : Bool) (m : Nat) (e0 e : Int) : Int :=
  let x : Int := (m * 2 ^ (e0 - e).toNat : Nat)
  if neg then -x else x

/-- The exact sum of two values under the special rules of IEEE 754 (R165). -/
def Val.add (a b : Val) : Val :=
  match a, b with
  | .nan, _ => .nan
  | _, .nan => .nan
  | .inf x, .inf y => if x = y then .inf x else .nan
  | .inf x, _ => .inf x
  | _, .inf y => .inf y
  | .fin x m e, .fin y n f =>
    let g := if e ≤ f then e else f
    let t := intAt x m e g + intAt y n f g
    if t = 0 then .fin (x && y) 0 g else .fin (decide (t < 0)) t.natAbs g

/-- The exact product of two values. [DEDUCED: log 77.] -/
def Val.mul (a b : Val) : Val :=
  match a, b with
  | .nan, _ => .nan
  | _, .nan => .nan
  | .inf x, .inf y => .inf (x != y)
  | .inf x, .fin y n _ => if n = 0 then .nan else .inf (x != y)
  | .fin x m _, .inf y => if m = 0 then .nan else .inf (x != y)
  | .fin x m e, .fin y n f => .fin (x != y) (m * n) (e + f)

/-- The value with its sign changed. -/
def Val.neg : Val → Val
  | .nan => .nan
  | .inf n => .inf (!n)
  | .fin n m e => .fin (!n) m e

/-- FP32 addition, multiplication and fused multiply-add, each rounded once (R165, R260). -/
def f32add (a b : BitVec 32) : BitVec 32 := (roundF32 ((ofF32 a).add (ofF32 b))).1.toF32
def f32mul (a b : BitVec 32) : BitVec 32 := (roundF32 ((ofF32 a).mul (ofF32 b))).1.toF32
def f32fma (a b c : BitVec 32) : BitVec 32 :=
  (roundF32 (((ofF32 a).mul (ofF32 b)).add (ofF32 c))).1.toF32
def f32neg (a : BitVec 32) : BitVec 32 := a ^^^ 0x80000000#32

/-- a < b of two values that are not NaN; the two zeros are equal. -/
def Val.lt (a b : Val) : Bool :=
  match a, b with
  | .inf x, .inf y => x && !y
  | .inf x, .fin _ _ _ => x
  | .fin _ _ _, .inf y => !y
  | .fin x m e, .fin y n f =>
    let g := if e ≤ f then e else f
    decide (intAt x m e g < intAt y n f g)
  | _, _ => false

/-! ## Status flags of R189 -/

def flNanIn : BitVec 8 := 0x01#8
def flNanGen : BitVec 8 := 0x02#8
def flOvf : BitVec 8 := 0x04#8
def flConvSat : BitVec 8 := 0x08#8
def flConvNan : BitVec 8 := 0x10#8
def flNanLost : BitVec 8 := 0x20#8
def flScaleClamp : BitVec 8 := 0x40#8
def flPtabCorr : BitVec 8 := 0x80#8

/-- `f` when `b` holds. -/
def flagIf (b : Bool) (f : BitVec 8) : BitVec 8 := if b then f else 0#8

/-! ## Element formats -/

/-- A pattern table as a slot holds it (R148): KIND, TABLE_ID, SOURCE (1: loaded binary) and its entries. -/
structure PTable where
  kind    : BitVec 2
  id      : BitVec 32
  source  : Bool
  entries : List (BitVec 16)
  deriving DecidableEq, Repr, Inhabited

/-- How the codes of a format become values. -/
inductive Elem
  | flt (f : FFmt)
  | int (bits : Nat) (sgn : Bool) (shift : Nat)
  | tab (t : PTable)
  deriving DecidableEq, Repr, Inhabited

/-- The operand class of a format (R127). -/
inductive OpClass
  | none
  | s6
  | n8
  | n16
  deriving DecidableEq, Repr, Inhabited

/-- A format ID's meaning: its element, class and permitted scale modes as a mask (R127). -/
structure Fmt where
  elem  : Elem
  cls   : OpClass
  modes : BitVec 4
  deriving DecidableEq, Repr, Inhabited

/-- R127, R128 without the pattern-table IDs; `none` for a reserved ID. -/
def stdFmt (id : Nat) : Option Fmt :=
  match id with
  | 0x00 => some { elem := .flt fp32, cls := .none, modes := 0b0001#4 }
  | 0x01 => some { elem := .flt fp16, cls := .n16, modes := 0b0001#4 }
  | 0x02 => some { elem := .flt bf16, cls := .n16, modes := 0b0001#4 }
  | 0x08 => some { elem := .flt fE4M3, cls := .n8, modes := 0b1111#4 }
  | 0x09 => some { elem := .flt fE5M2, cls := .n8, modes := 0b1111#4 }
  | 0x0A => some { elem := .flt fE3M2, cls := .s6, modes := 0b1111#4 }
  | 0x0B => some { elem := .flt fE2M3, cls := .s6, modes := 0b1111#4 }
  | 0x0C => some { elem := .flt fE2M1, cls := .s6, modes := 0b1111#4 }
  | 0x10 => some { elem := .flt fE4M3, cls := .n8, modes := 0b0010#4 }
  | 0x11 => some { elem := .flt fE5M2, cls := .n8, modes := 0b0010#4 }
  | 0x12 => some { elem := .flt fE3M2, cls := .s6, modes := 0b0010#4 }
  | 0x13 => some { elem := .flt fE2M3, cls := .s6, modes := 0b0010#4 }
  | 0x14 => some { elem := .flt fE2M1, cls := .s6, modes := 0b0010#4 }
  | 0x15 => some { elem := .int 8 true 6, cls := .n8, modes := 0b0010#4 }
  | 0x18 => some { elem := .int 8 true 0, cls := .n8, modes := 0b1111#4 }
  | 0x19 => some { elem := .int 8 false 0, cls := .n8, modes := 0b1111#4 }
  | 0x1A => some { elem := .int 4 true 0, cls := .s6, modes := 0b1111#4 }
  | _ => none

/-- A pattern table's format: 4 or 6 bits of class S6, 8 bits of class N8 (R127, R148). -/
def tabFmt (t : PTable) : Fmt :=
  { elem := .tab t, cls := if t.kind.toNat < 2 then .s6 else .n8, modes := 0b1111#4 }

/-- R127: the meaning of a format ID with the table slots `tabs`. -/
def fmtOf (tabs : Vector (Option PTable) 64) (id : Nat) : Option Fmt :=
  if h : 0x40 ≤ id ∧ id < 0x80 then (tabs[id - 0x40]'(by omega)).map tabFmt else stdFmt id

/-- Bits per element (R127). -/
def Elem.bits : Elem → Nat
  | .flt f => f.bits
  | .int b _ _ => b
  | .tab t => match t.kind.toNat with
    | 0 => 4
    | 1 => 6
    | _ => 8

/-- An integer as a value scaled by 2^−shift. -/
def intVal (i : Int) (shift : Nat) : Val := .fin (decide (i < 0)) i.natAbs (-(shift : Int))

/-- The value of a table entry (R150 to R152). -/
def entryVal (kind : Nat) (e : BitVec 16) : Val :=
  match kind with
  | 0 | 1 => if bit e 6 then fE2M3.decode (field e 0 6) else fE3M2.decode (field e 0 6)
  | 2 => fN8.decode (field e 0 9)
  | _ => intVal (signed (field e 0 8) 8) 0

/-- The value of an element code. -/
def Elem.decode (el : Elem) (c : Nat) : Val :=
  match el with
  | .flt f => f.decode c
  | .int b s sh => intVal (if s then signed c b else (c : Int)) sh
  | .tab t => entryVal t.kind.toNat (t.entries.getD c 0#16)

/-- Element `i` of a packed row (R135 to R137). -/
def elemCode (bits : Nat) (row : Bytes) (i : Nat) : Nat :=
  nbits (leNat ((row.drop (i * bits / 8)).take 4)) (i * bits % 8) bits

/-- Codes packed into bytes, the unused bits of the last byte zero (R135 to R138). -/
def packCodes (bits : Nat) (codes : List Nat) : Bytes :=
  leBytes ((codes.length * bits + 7) / 8) (codes.foldr (fun c acc => c % 2 ^ bits + acc * 2 ^ bits) 0)

/-- The value of a scale byte (R139, R141). -/
def scaleVal (mode x : Nat) : Val :=
  match mode with
  | 0 => .fin false 1 0
  | 1 => if x = 0xFF then .nan else .fin false 1 ((x : Int) - 127)
  | _ => if x ≥ 0x80 || x = 0x7F then .nan else fE4M3.decode x

/-- Elements per scale (R139); 0 for mode 0. -/
def scaleLen (mode : Nat) : Nat :=
  match mode with
  | 0 => 0
  | 2 => 16
  | _ => 32

/-! ## Conversions from FP32 (R171 to R180) -/

/-- A rounded value in a floating-point target (R173, R174). -/
def convFlt (f : FFmt) (md : Rnd) (sat : Bool) (neg : Bool) (n d : Nat) : Nat × BitVec 8 :=
  let r := roundQ f.mbits f.emin md n d
  let mx := f.maxFin
  let big := magLt mx.1 mx.2 r.1 r.2
  let exactBig : Bool :=
    if mx.2 < 0 then decide (mx.1 * d < n * 2 ^ (-mx.2).toNat) else decide (mx.1 * 2 ^ mx.2.toNat * d < n)
  if md = .rz then
    if exactBig then (f.encodeMag neg mx.1 mx.2, flConvSat) else (f.encodeMag neg r.1 r.2, 0#8)
  else if big then
    if sat || f.kind = .finite then (f.encodeMag neg mx.1 mx.2, flConvSat)
    else if f.kind = .e4m3 then (f.nanCode, flConvNan)
    else (f.infCode neg, 0#8)
  else (f.encodeMag neg r.1 r.2, 0#8)

/-- A rounded value in an integer target of `b` bits scaled by 2^−sh (R174, R175). -/
def convInt (b : Nat) (sgn : Bool) (sh : Nat) (md : Rnd) (neg : Bool) (n d : Nat) : Nat × BitVec 8 :=
  let k := roundAt md n d (-(sh : Int))
  let hi : Nat := if sgn then 2 ^ (b - 1) - 1 else 2 ^ b - 1
  let lo : Nat := if sgn then 2 ^ (b - 1) else 0
  if neg then
    if k > lo then (unsigned (-(lo : Int)) b, flConvSat) else (unsigned (-(k : Int)) b, 0#8)
  else if k > hi then (hi, flConvSat) else (k, 0#8)

/-- The conversion of a rational multiple of a value: the value is divided by the scale sn · 2^se exactly and rounded
once (R173 to R177). -/
def convertScaled (el : Elem) (md : Rnd) (sat : Bool) (v : Val) (sm : Nat) (se : Int) : Nat × BitVec 8 :=
  let rat (m : Nat) (e : Int) : Nat × Nat :=
    let q := ratOf m (e - se)
    (q.1, q.2 * sm)
  match el, v with
  | .flt f, .nan =>
    if f.kind = .finite then (0, flNanIn ||| flNanLost) else (f.nanCode, flNanIn)
  | .flt f, .inf neg =>
    if sat || f.kind = .finite then (f.encodeMag neg f.maxFin.1 f.maxFin.2, flConvSat)
    else if f.kind = .e4m3 then (f.nanCode, flConvNan)
    else (f.infCode neg, 0#8)
  | .flt f, .fin neg m e => convFlt f md sat neg (rat m e).1 (rat m e).2
  | .int _ _ _, .nan => (0, flNanIn ||| flNanLost)
  | .int b sgn _, .inf neg =>
    (if neg then (if sgn then 2 ^ (b - 1) else 0) else (if sgn then 2 ^ (b - 1) - 1 else 2 ^ b - 1), flConvSat)
  | .int b sgn sh, .fin neg m e => convInt b sgn sh md neg (rat m e).1 (rat m e).2
  | .tab _, _ => (0, 0#8)

/-- Conversion of an FP32 value under RND and SAT (R171 to R176). A conversion to FP32 is exact and writes the canonical
NaN (R134, R172). -/
def convert (el : Elem) (md : Rnd) (sat : Bool) (v : Val) : Nat × BitVec 8 :=
  if el = .flt fp32 then (v.toF32.toNat, flagIf v.isNan flNanIn) else convertScaled el md sat v 1 0

/-- EMAX and MAXV of R178, MAXV as m · 2^e. -/
def emaxMaxv (el : Elem) : Int × Nat × Int :=
  match el with
  | .flt f =>
    let mx := f.maxFin
    ((Nat.log2 mx.1 : Int) + mx.2, mx.1, mx.2)
  | .int 8 true 6 => (0, 127, -6)
  | .int 8 true _ => (6, 127, 0)
  | .int 8 false _ => (7, 255, 0)
  | _ => (2, 7, 0)

/-- The larger magnitude of two finite values. -/
def magMax (a b : Nat × Int) : Nat × Int := if magLt a.1 a.2 b.1 b.2 then b else a

/-- The smallest positive E4M3 code whose value is at least amax / MAXV, or none (R177). -/
def e4m3AtLeast (am : Nat × Int) (mv : Nat × Int) : Option Nat :=
  ((List.range 127).drop 1).find? fun c =>
    match fE4M3.decode c with
    | .fin _ m e => !(magLt (m * mv.1) (e + mv.2) am.1 am.2)
    | _ => false

/-- R177: the scale byte, the element codes and the flags of one block; `rnds` holds the rounding of each element. [DEDUCED: log 78.] -/
def convertBlock (el : Elem) (mode : Nat) (rnds : List Rnd) (vs : List Val) : Nat × List Nat × BitVec 8 :=
  let bad := vs.any (fun v => v.isNan || v.isInf)
  if bad then
    (if mode = 1 then 0xFF else 0x7F, vs.map (fun _ => 0), flagIf (vs.any Val.isNan) flNanIn)
  else
    let amax := vs.foldl (fun a v => match v with
      | .fin _ m e => magMax a (m, e)
      | _ => a) (0, 0)
    let ex := emaxMaxv el
    let elems (sm : Nat) (se : Int) : List (Nat × BitVec 8) :=
      (vs.zip rnds).map (fun p => convertScaled el p.2 true p.1 sm se)
    let fin (byte : Nat) (fl : BitVec 8) (es : List (Nat × BitVec 8)) : Nat × List Nat × BitVec 8 :=
      (byte, es.map Prod.fst, es.foldl (fun a e => a ||| e.2) fl)
    if mode = 1 then
      if amax.1 = 0 then fin 0 0#8 (elems 1 (-127))
      else
        let raw : Int := floorLog2 (ratOf amax.1 amax.2).1 (ratOf amax.1 amax.2).2 - ex.1 + 127
        let e : Int := if raw < 0 then 0 else if raw > 254 then 254 else raw
        fin e.toNat (flagIf (decide (e ≠ raw)) flScaleClamp) (elems 1 (e - 127))
    else if amax.1 = 0 then (0, vs.map (fun _ => 0), 0#8)
    else
      let c := e4m3AtLeast amax ex.2
      let code := c.getD 0x7E
      match fE4M3.decode code with
      | .fin _ m e => fin code (flagIf c.isNone flScaleClamp) (elems m e)
      | _ => (0, [], 0#8)

/-! ## Matrix blocks (R159 to R170) -/

/-- The exact sum of finite products and whether all are −0 (R160, R164). [DEDUCED: log 77.] -/
def exactSum (ps : List Val) : Val :=
  if ps.isEmpty then .fin false 0 0
  else if ps.all (fun p => p.isZero && p.isNeg) then .fin true 0 0
  else
    match ps.foldl Val.add (.fin false 0 0) with
    | .fin n m e => if m = 0 then .fin false 0 e else .fin n m e
    | v => v

/-- The value v of one K-block and its flags (R161, R169, R170). [DEDUCED: log 77.] -/
def blockVal (ps : List (Val × Val)) (sa sb : Val) : Val × BitVec 8 :=
  let nanOp := ps.any (fun p => p.1.isNan || p.2.isNan) || sa.isNan || sb.isNan
  let prods := ps.map (fun p => p.1.mul p.2)
  let gen := prods.any Val.isNan || (prods.contains (.inf true) && prods.contains (.inf false))
  if nanOp then (.nan, flNanIn)
  else if gen then (.nan, flNanGen)
  else if prods.any Val.isInf then
    let v := ((Val.inf (prods.contains (.inf true))).mul sa).mul sb
    (v, flagIf v.isNan flNanGen)
  else
    let r := roundF32 (((exactSum prods).mul sa).mul sb)
    (r.1, flagIf r.2 flOvf)

/-- One addition of the chain of R162, with its flags. -/
def chainAdd (acc v : Val) : Val × BitVec 8 :=
  let s := acc.add v
  let r := roundF32 s
  (r.1, flagIf r.2 flOvf ||| flagIf (s.isNan && !acc.isNan && !v.isNan) flNanGen)

/-- R162: the chain over the blocks, `acc` the Hatch value where the command accumulates. -/
def chain (acc : Option Val) : List (Val × BitVec 8) → Val × BitVec 8
  | [] => (acc.getD (.fin false 0 0), 0#8)
  | (v, f) :: t =>
    let a : Val × BitVec 8 := match acc with
      | none => (v, f)
      | some x => let r := chainAdd x v; (r.1, f ||| r.2)
    let r := chain (some a.1) t
    (r.1, a.2 ||| r.2)

/-! ## Philox4x32-10 (R183) -/

/-- One round of R183. -/
def philoxRound (c : BitVec 32 × BitVec 32 × BitVec 32 × BitVec 32) (k0 k1 : BitVec 32) :
    BitVec 32 × BitVec 32 × BitVec 32 × BitVec 32 :=
  let p0 : Nat := 0xD2511F53 * c.1.toNat
  let p1 : Nat := 0xCD9E8D57 * c.2.2.1.toNat
  (BitVec.ofNat 32 (p1 >>> 32) ^^^ c.2.1 ^^^ k0, BitVec.ofNat 32 p1,
   BitVec.ofNat 32 (p0 >>> 32) ^^^ c.2.2.2 ^^^ k1, BitVec.ofNat 32 p0)

/-- `n` rounds with the key schedule of R183. -/
def philoxN : Nat → (BitVec 32 × BitVec 32 × BitVec 32 × BitVec 32) → BitVec 32 → BitVec 32 →
    BitVec 32 × BitVec 32 × BitVec 32 × BitVec 32
  | 0, c, _, _ => c
  | n + 1, c, k0, k1 => philoxN n (philoxRound c k0 k1) (k0 + 0x9E3779B9#32) (k1 + 0xBB67AE85#32)

/-- R185: the random word of element `e`. -/
def randomWord (seed : BitVec 64) (e : Nat) (purpose : BitVec 16) (tensor : BitVec 32) (lroom : Nat) (roomkey : Bool)
    (iter : BitVec 64) : BitVec 32 :=
  let g := e / 4
  let c0 := BitVec.ofNat 32 g
  let c1 := BitVec.ofNat 32 (nbits g 32 14 + purpose.toNat * 2 ^ 16)
  let c3 := BitVec.ofNat 32 ((if roomkey then lroom % 128 else 0) + b2n roomkey * 128 + field iter 0 24 * 256)
  let w := philoxN 10 (c0, c1, tensor, c3) (BitVec.ofNat 32 seed.toNat) (BitVec.ofNat 32 (field seed 32 32))
  match e % 4 with
  | 0 => w.1
  | 1 => w.2.1
  | 2 => w.2.2.1
  | _ => w.2.2.2

/-- R188: the uniform value r[31:8] · 2^−24. -/
def uniformVal (r : BitVec 32) : Val := .fin false (field r 8 24) (-24)

end Sys2Proof.Machine
end

