-- ==== Sys2Proof/Machine/RoomState.lean ====
section
/-! DEFINITION. The state of one Room: sequencer, stores, queues, matrix and vector engines, Hatch, Pantry, Dumbwaiter,
latch unit, Mailslots, Outlet, trace buffer and mirror log (chapters 05 to 07, 09, 11, 15). -/

namespace Sys2Proof.Machine

/-- Which bits of a 256-byte line a write changes. -/
abbrev LineMask := BitVec 2048

/-- A freeze condition that a Room holds (R353), with the tag of the command that waits. -/
inductive Frz
  | line (tag : BitVec 16) (line : Nat) (write : Bool)
  | queue (tag : BitVec 16) (unit : Nat)
  | depart (tag : BitVec 16)
  | credit (tag : BitVec 16) (chan : Nat)
  deriving DecidableEq, Repr, Inhabited

/-- A hardware loop in progress (R326): the tag of its LOOP (R363), its body's first and last bundle index, the iterations still to run after the
present one, the bundle store offset of the body, and the increment. -/
structure LoopFrame where
  tag   : BitVec 16
  first : Nat
  last  : Nat
  left  : Nat
  ptr   : Nat
  incsc : Nat
  incen : Bool
  incv  : BitVec 16
  deriving DecidableEq, Repr, Inhabited

/-- A sequencer command of the bundle in issue (R310, R324): whether it stood last in its bundle. -/
structure SeqCmd where
  cmd  : QCmd
  last : Bool
  deriving DecidableEq, Repr, Inhabited

/-- The sequencer (R320, R321, R367 to R370). `scVis`, `pbVis` and `qdVis` are the counters, predicate bits and queue
depths as they stood at the start of the present gc (R314, R319, R324); `now` holds the sequencer commands of the bundle
in issue; `doneAt` and `doneTag` are the end of the last DUR of the tick and its command (R60, R69). -/
structure Seq where
  segment    : BitVec 16
  ended      : Bool
  structStop : Bool
  issuing    : Bool
  pb         : BitVec 8
  pbVis      : BitVec 8
  sc         : Vector (BitVec 64) 16
  scVis      : Vector (BitVec 64) 16
  bptr       : Nat
  bidx       : Nat
  offNow     : Nat
  fresh      : Bool
  loops      : List LoopFrame
  lastIssue  : Nat
  now        : List SeqCmd
  next       : BitVec 16
  qdVis      : Vector Nat 7
  seqFault   : BitVec 16
  outFault   : BitVec 16
  freezeGc   : BitVec 32
  doneAt     : Nat
  doneTag    : BitVec 16
  deriving DecidableEq, Repr, Inhabited

/-- A segment of a Room program (R303): bundle store offset, budget, and the ratio named by a frequency-change tick
(0: none). -/
structure Seg where
  off    : Nat
  budget : Nat
  newM   : Nat
  deriving DecidableEq, Repr, Inhabited

/-- A DSET whose write is not yet visible to the units (R330): entry, low bit, width, value. -/
structure DsetWr where
  entry : Nat
  lsb   : Nat
  width : Nat
  val   : Nat
  deriving DecidableEq, Repr, Inhabited

/-- The bundle store and descriptor store (R302, R303, R331); `bundleDue` marks the 64-bit words of the bundle store and
`descDue` the words (4 × entry + word) of the descriptor store that hold a double-bit error. -/
structure Prog where
  bundle    : SMap 8
  bundleLen : Nat
  bundleDue : SMap 1
  segs      : List Seg
  desc      : SMap 256
  descDue   : SMap 1
  dsets     : List DsetWr
  deriving DecidableEq, Repr, Inhabited

/-- One of the two buffers of a quadrant (R195, R196): state 0 EMPTY, 1 LOADING, 2 READY; format record; the elements by
local row and column; the scales by local K-block and column (SQ 0) or column block (SQ 1). -/
structure MxBuf where
  st     : BitVec 2
  fmt    : BitVec 8
  smode  : BitVec 2
  sq     : Bool
  rows   : Nat
  cols   : Nat
  cells  : List (List Val)
  scales : List (List Val)
  deriving DecidableEq, Repr, Inhabited

/-- A load whose shadow buffers become READY in gc `due` (R220). -/
structure MxLoad where
  due   : Nat
  quads : BitVec 4
  deriving DecidableEq, Repr, Inhabited

/-- The matrix engine (R195, R196, R211, R244, R245). -/
structure Mx where
  act       : Vector MxBuf 4
  shd       : Vector MxBuf 4
  loads     : List MxLoad
  strFree   : Nat
  strLast   : Nat
  loadFree  : Nat
  loadLast  : Nat
  entryGc   : BitVec 40
  skipFault : BitVec 16
  deriving DecidableEq, Repr, Inhabited

/-- The Hatch (R233, R299): contents by slot × 16,384 + row × 128 + column, and the slot states, two bits each. -/
structure Hatch where
  mem : SMap 32
  st  : BitVec 8
  rel : List (Nat × Nat)
  deriving DecidableEq, Repr, Inhabited

/-- The vector engine (R247, R250, R251, R300): register lanes by register × 256 + lane. -/
structure Vec where
  regs      : SMap 32
  vm        : Vector (BitVec 256) 8
  free      : Nat
  issueGc   : BitVec 40
  skipFault : BitVec 16
  deriving DecidableEq, Repr, Inhabited

/-- What waits in the arrival buffer for the Arrivals port (R418, R420). -/
inductive ArrKind
  | dw (id : Nat)
  | data
  | watch
  | inc (latch : Nat) (gen : BitVec 8) (count : BitVec 16)
  | msg (mslot : Nat) (hdr : BitVec 128)
  | comp (rid : BitVec 8)
  | gather (cellar : Nat)
  | coll (porch ctx inst idx : Nat)
  deriving DecidableEq, Repr, Inhabited

/-- An arrival (R418, R420, R428): what it is, its line, its bytes and the mask of the bits written, its poisoned 64-bit
words, its retried and refresh-held bits, its source word (R748) and, for a fabric packet that is acknowledged, its source and whether it came on the back stair. -/
structure Arr where
  kind    : ArrKind
  line    : Nat
  data    : Bytes
  mask    : LineMask
  poison  : BitVec 32
  retried : Bool
  refresh : Bool
  src     : BitVec 64
  srank   : BitVec 12
  sroom   : BitVec 7
  fab     : Bool
  bs      : Bool
  deriving DecidableEq, Repr, Inhabited

/-- A Gallery-port use of a bank in a schedule cycle (R413, R416): its line, the start gc and the words of its command,
and its kind (0 read, 1 write, 2 Corridor write, 3 and 4 the gc before a partial one, R415). [DEDUCED: log 81.] -/
structure BankUse where
  cyc   : Nat
  bank  : Nat
  line  : Nat
  start : Nat
  word  : BitVec 128
  kind  : Nat
  deriving DecidableEq, Repr, Inhabited

/-- The Pantry (R410, R422, R423, R454 to R457): bytes, line tags (0 NONE, 1 EMPTY, 2 PEND, 3 FULL), the retried and
refresh-held bits of a line, the period in which a fetched line was written plus one while it is unused, the words that
hold an uncorrectable or a single-bit error, bank control, the scrubber, the arrival buffer and the arrivals that others hold for it (R421), and the period of the Arrivals port's latest access plus one. -/
structure Pan where
  mem     : SMap 8
  tags    : SMap 2
  bits    : SMap 2
  fetched : SMap 64
  due     : SMap 1
  sbe     : SMap 1
  own     : BitVec 12
  gated   : BitVec 12
  waking  : BitVec 12
  wakeAt  : Vector Nat 12
  status  : BitVec 64
  gap     : BitVec 8
  passes  : BitVec 32
  scLine  : Vector Nat 12
  scFree  : Vector Nat 12
  scPass  : Vector Nat 12
  tagLine : BitVec 12
  buf     : List Arr
  held    : List Arr
  readTurn : Bool
  portAt   : Nat
  uses    : List BankUse
  deriving DecidableEq, Repr, Inhabited

/-- One request of a stream (R440): device address, bytes, first line. -/
structure DwReq where
  haddr : Nat
  n     : Nat
  line  : Nat
  deriving DecidableEq, Repr, Inhabited

/-- A stream (R439 to R446): `todo` are its requests still to issue, `infl` those in flight, `zero` the withheld fetches
whose lines are still being written, `bits` the union of R445. For R770: the bounding range, the requests that have not
completed and the granules of those that have. -/
structure DwStream where
  id      : Nat
  ctx     : Nat
  fetch   : Bool
  tag     : BitVec 16
  bound   : Bool
  todo    : List DwReq
  first   : Bool
  firstAt : Nat
  depth   : Nat
  pageLo  : Nat
  pageHi  : Nat
  dlen    : Bool
  dlatch  : Nat
  dgen    : BitVec 8
  infl    : Nat
  zero    : Nat
  bits    : BitVec 2
  rangeLo : Nat
  rangeHi : Nat
  left    : List DwReq
  gdone   : List Nat
  deriving DecidableEq, Repr, Inhabited

/-- The Cellar engine operation of the Room (R493): which engine, its command, and its latch signal. -/
structure RoomEng where
  xpose  : Bool
  cellar : Nat
  tag    : BitVec 16
  dlen   : Bool
  dlatch : Nat
  dgen   : BitVec 8
  deriving DecidableEq, Repr, Inhabited

/-- The Dumbwaiter (R436, R458 to R460). `lags` counts the reads that the present freeze holds or has held. -/
structure Dw where
  streams : List DwStream
  last    : Nat
  nextId  : Nat
  eng     : Option RoomEng
  issuedAt : Nat
  reqIssued    : BitVec 32
  linesFetched : BitVec 32
  linesUsed    : BitVec 32
  suppressed   : BitVec 16
  fenced       : BitVec 16
  linesUnused  : BitVec 32
  linesPut     : BitVec 32
  leadSum  : BitVec 32
  leadReads : BitVec 32
  lagSum   : BitVec 32
  lagReads : BitVec 32
  leadMin  : BitVec 16
  lagMax   : BitVec 16
  lateUnrep : BitVec 16
  lags     : Nat
  deriving DecidableEq, Repr, Inhabited

/-- A watch (R529 to R535). -/
structure Watch where
  latch   : Nat
  gen     : BitVec 8
  atleast : Bool
  val     : BitVec 16
  pd      : Nat
  wlen    : Bool
  wline   : Nat
  start   : Nat
  timeout : Nat
  tag     : BitVec 16
  deriving DecidableEq, Repr, Inhabited

/-- The latch unit (R517, R523, R529, R574, R575): words, release counts, the words released in the present period, the
arrival bits applied to each word in the present period, and the predicate bits that no tag-checked read of their watch
line has allowed yet (R537): predicate, line, tag. -/
structure Latch where
  words    : Vector (BitVec 64) 48
  releases : Vector (BitVec 16) 48
  relNow   : BitVec 48
  updBits  : Vector (BitVec 2) 48
  watches  : Vector (Option Watch) 8
  status   : BitVec 64
  sel      : BitVec 6
  guards   : List (Nat × Nat × BitVec 16)
  deriving DecidableEq, Repr, Inhabited

/-- A record placed in a Mailslot's ring (R541, R542, R545). -/
structure MsgRec where
  hdr     : BitVec 128
  pad     : Bool
  units   : Nat
  payload : Bytes
  poison  : Bool
  readyAt : Nat
  deriving DecidableEq, Repr, Inhabited

/-- A Mailslot (R539, R542, R544, R576). -/
structure Ring where
  base      : Nat
  nlines    : Nat
  smc       : Bool
  srank     : BitVec 12
  sroom     : BitVec 7
  smch      : BitVec 3
  wptr      : Nat
  rptr      : Nat
  used      : Nat
  expSeq    : BitVec 16
  recs      : List MsgRec
  processed : BitVec 32
  refused   : BitVec 16
  deriving DecidableEq, Repr, Inhabited

/-- A destination of a send channel (R547). -/
structure SendDest where
  rank : BitVec 12
  room : BitVec 7
  cred : Nat
  wmir : Nat
  deriving DecidableEq, Repr, Inhabited

/-- A send channel (R547, R567). -/
structure SendChan where
  tgt    : Nat
  mslot  : Nat
  mch    : Nat
  runits : Nat
  seq    : BitVec 16
  dests  : List SendDest
  deriving DecidableEq, Repr, Inhabited

/-- A multicast channel (R568). -/
structure McEntry where
  mch     : Nat
  members : List (BitVec 12 × BitVec 7)
  deriving DecidableEq, Repr, Inhabited

/-- The declarations of a COMM section and the Mailslots (R564 to R569, R576, R577). -/
structure Comm where
  rings    : Vector (Option Ring) 4
  handlers : List (BitVec 128)
  sends    : List SendChan
  mchs     : List McEntry
  mslotSel : BitVec 2
  sendSel  : BitVec 4
  memSel   : BitVec 4
  deriving DecidableEq, Repr, Inhabited

/-- What a departure-buffer entry carries (R345, R552). -/
inductive DepKind
  | line
  | msg
  | inc
  | credit
  deriving DecidableEq, Repr, Inhabited

/-- An entry of the departure buffer (R345, R614): target, route, line or companion offset, payload, poisoned words and
message header fields. `copies` are the destinations still to be sent of a multicast packet. -/
structure Dep where
  kind   : DepKind
  tgt    : Nat
  flag   : Bool
  copies : List (BitVec 12 × BitVec 7)
  mch    : Nat
  addr   : Nat
  data   : Bytes
  mask   : LineMask
  poison : BitVec 32
  tag    : BitVec 16
  hdr    : BitVec 128
  lat    : BitVec 64
  deriving DecidableEq, Repr, Inhabited

/-- An order tracker (R613). -/
structure Tracker where
  drank : BitVec 12
  droom : BitVec 7
  count : BitVec 16
  deriving DecidableEq, Repr, Inhabited

/-- A line due at an Outlet output (R345, R352): gc, output (0 local, 1 Corridor, 2 departure), command, and the cycle of
its pending effect. -/
structure OutLine where
  cyc    : Nat
  output : Nat
  word   : BitVec 128
  start  : Nat
  due    : Nat
  deriving DecidableEq, Repr, Inhabited

/-- The Outlet (R341, R345, R352, R613): lane, departure buffer, credit packets (R551), order trackers, the lines each output takes in coming
gc. -/
structure Out where
  free   : Nat
  buf    : List Dep
  credits : List Dep
  trk    : List Tracker
  lines  : List OutLine
  waitGc : BitVec 32
  deriving DecidableEq, Repr, Inhabited

/-- A line that a started command has read: its schedule cycle, its bytes and whether it came poisoned. -/
structure Got where
  cyc   : Nat
  line  : Nat
  bytes : Bytes
  bad   : Bool
  deriving DecidableEq, Repr, Inhabited

/-- A started command that is still reading the Pantry: its descriptors, scalar counters, vector registers and steps as
they stood in its start gc (R291, R316), its operand class, a duration or group number, gc per group, the lines read so
far, and the row reductions so far. -/
structure Run where
  id    : Nat
  cmd   : QCmd
  start : Nat
  descs : List (BitVec 256)
  scs   : Vector (BitVec 64) 16
  regs  : SMap 32
  steps : List (BitVec 64)
  cls   : OpClass
  e     : Nat
  p     : Nat
  got   : List Got
  acc   : List (Option (BitVec 32))
  deriving DecidableEq, Repr, Inhabited

/-- An effect that a started command has at a later schedule cycle. -/
inductive Eff
  | vreg (reg : Nat) (mask : BitVec 256) (vals : List (BitVec 32))
  | vmask (vm : Nat) (mask bits : BitVec 256)
  | hatch (slot row col : Nat) (vals : List (BitVec 32))
  | hatchVec (slot row : Nat) (mask : BitVec 256) (vals : List (BitVec 32))
  | hatchFree (slot : Nat)
  | pan (line : Nat) (mask : LineMask) (data : Bytes) (poison : BitVec 32)
  | corridor (line : Nat) (mask : LineMask) (data : Bytes) (poison : BitVec 32)
  | complete (unit opcode : Nat) (skip : Bool)
  | toCorridor (word : BitVec 128) (dst : RoomId) (line : Nat) (mask : LineMask) (data : Bytes) (poison : BitVec 32)
  | mirrorFeed (entry : MirrorLogEntry) (bytes : Bytes)
  | sendMsg (chan : Nat) (d : Dep)
  | pown (banks : BitVec 12) (own : Bool)
  | ptag (line n tag : Nat)
  | halt (ctx : Nat)
  | grab (id line : Nat) (lost : Bool)
  | mmEntry (id : Nat) (c : QCmd)
  | mmRow (id row : Nat)
  | mxFill (id : Nat)
  | vldEnd (id : Nat)
  | chainGroup (id group : Nat)
  | copyLine (id j : Nat)
  | drainSlot (c : QCmd) (slot : Nat)
  | mxBegin (bufs : List (Nat × MxBuf)) (ready : Nat)
  | depart (d : Dep)
  | oinc (latch : Nat) (gen : BitVec 8) (inc : BitVec 16)
  | localMsg (mslot : Nat) (d : Dep)
  | linc (latch : Nat) (gen : BitVec 8) (inc : BitVec 16) (src : BitVec 64)
  | credits (mslot units : Nat)
  | outLost (output : Nat) (other : BitVec 16)
  deriving DecidableEq, Repr, Inhabited

/-- A pending effect: the schedule cycle from which it shows, the start gc and the words of its command. -/
structure Pend where
  due   : Nat
  start : Nat
  word  : BitVec 128
  eff   : Eff
  deriving DecidableEq, Repr, Inhabited

/-- What a watch does three periods after it ends (R532, R533). -/
structure WatchEnd where
  due     : Nat
  pd      : Nat
  val     : Bool
  wlen    : Bool
  wline   : Nat
  word    : BitVec 64
  poison  : Bool
  bits    : BitVec 2
  tag     : BitVec 16
  deriving DecidableEq, Repr, Inhabited

/-- Trace capture (R772 to R775, R779): the control fields, a write waiting for the boundary, the records oldest first,
the records still to capture after a trigger, and the records of the present gc, each with its place (16 times its event plus
its unit) and whether the filters want it. -/
structure Trace where
  ctl     : BitVec 64
  pending : Option (BitVec 64)
  recs    : List (BitVec 256)
  wrapped : Bool
  stopped : Bool
  lost    : BitVec 32
  after   : Option Nat
  cur     : List (Nat × Bool × BitVec 256)
  deriving DecidableEq, Repr, Inhabited

/-- The mirror window of the Room (R761) and its log (R766), each entry with its schedule tick and window. -/
structure MirrorRoom where
  win   : Nat
  lines : BitVec 12
  crc   : BitVec 64
  log   : List (BitVec 64 × Nat × MirrorLogEntry)
  deriving DecidableEq, Repr, Inhabited

/-- A Room. `queues` are those of the units 1 to 6 (R312, entry 0 unused); `panFree` and `latFree` the advancing gc and
`dwFree` the period of the Wing clock from which those lanes are free; `fmt` is ROOM_FMT_STATUS (R189); `ptabSel` and `ctabSel` the slot selectors of R192 and
R301; `frzIn` says that it has held a condition in the present freeze; `stopped` that a STOP took effect in the Room (R806); `runs` the started commands that still read; `w1c` ROOM_W1C_RACE (R753). -/
structure Room where
  on      : Bool
  seq     : Seq
  prog    : Prog
  queues  : Vector (List QCmd) 7
  panFree : Nat
  dwFree  : Nat
  latFree : Nat
  mx      : Mx
  hatch   : Hatch
  vec     : Vec
  fmt     : BitVec 64
  pan     : Pan
  dw      : Dw
  latch   : Latch
  comm    : Comm
  out     : Out
  pend    : List Pend
  runs    : List Run
  nextRun : Nat
  wends   : List WatchEnd
  frz     : List Frz
  frzIn   : Bool
  probeAt : Nat
  stopped : Bool
  trace   : Trace
  mirror  : MirrorRoom
  ptabSel : BitVec 6
  ctabSel : BitVec 5
  w1c     : BitVec 64
  deriving DecidableEq, Repr, Inhabited

/-! ## Reset values -/

def Seq.reset : Seq :=
  { segment := 0, ended := false, structStop := false, issuing := false, pb := 1, pbVis := 1,
    sc := Vector.replicate 16 0, scVis := Vector.replicate 16 0, bptr := 0, bidx := 0, offNow := 0, fresh := true,
    loops := [], lastIssue := 0, now := [], next := 0, qdVis := Vector.replicate 7 0, seqFault := 0, outFault := 0,
    freezeGc := 0, doneAt := 0, doneTag := 0 }

def Prog.reset : Prog :=
  { bundle := [], bundleLen := 0, bundleDue := [], segs := [], desc := [], descDue := [], dsets := [] }

/-- EMPTY, +0 in every cell (after R199). -/
def MxBuf.reset : MxBuf :=
  { st := 0, fmt := 0, smode := 0, sq := false, rows := 0, cols := 0, cells := [], scales := [] }

def Mx.reset : Mx :=
  { act := Vector.replicate 4 MxBuf.reset, shd := Vector.replicate 4 MxBuf.reset, loads := [], strFree := 0,
    strLast := 0, loadFree := 0, loadLast := 0, entryGc := 0, skipFault := 0 }

def Hatch.reset : Hatch := { mem := [], st := 0, rel := [] }

/-- R250: +0 in every lane, VM0 to VM7 all ones. -/
def Vec.reset : Vec :=
  { regs := [], vm := Vector.replicate 8 (BitVec.allOnes 256), free := 0, issueGc := 0, skipFault := 0 }

/-- [DESIGN CHOICE: log 88.] -/
def Pan.reset : Pan :=
  { mem := [], tags := [], bits := [], fetched := [], due := [], sbe := [], own := 0, gated := 0, waking := 0,
    wakeAt := Vector.replicate 12 0, status := 0, gap := 0x40, passes := 0, scLine := Vector.replicate 12 0,
    scFree := Vector.replicate 12 0, scPass := Vector.replicate 12 0, tagLine := 0, buf := [], held := [], readTurn := false, portAt := 0,
    uses := [] }

def Dw.reset : Dw :=
  { streams := [], last := 3, nextId := 0, eng := none, issuedAt := 0, reqIssued := 0, linesFetched := 0,
    linesUsed := 0, suppressed := 0, fenced := 0, linesUnused := 0, linesPut := 0, leadSum := 0, leadReads := 0,
    lagSum := 0, lagReads := 0, leadMin := 0xFFFF, lagMax := 0, lateUnrep := 0, lags := 0 }

def Latch.reset : Latch :=
  { words := Vector.replicate 48 0, releases := Vector.replicate 48 0, relNow := 0,
    updBits := Vector.replicate 48 0, watches := Vector.replicate 8 none, status := 0, sel := 0, guards := [] }

def Comm.reset : Comm :=
  { rings := Vector.replicate 4 none, handlers := [], sends := [], mchs := [], mslotSel := 0, sendSel := 0,
    memSel := 0 }

def Out.reset : Out := { free := 0, buf := [], credits := [], trk := [], lines := [], waitGc := 0 }

/-- R779: EVENTS 0xFF, UNITS 0x7F, TAG_HI 0xFFFF. -/
def Trace.reset : Trace :=
  { ctl := 0xFFFF_0000_007F_FF00#64, pending := none, recs := [], wrapped := false, stopped := false, lost := 0,
    after := none, cur := [] }

def MirrorRoom.reset : MirrorRoom :=
  { win := 0, lines := 0, crc := BitVec.allOnes 64, log := [] }

/-- A Room whose domain leaves reset: everything cleared (R114, R199, R250, R423, R518). -/
def Room.reset (on : Bool) : Room :=
  { on := on, seq := Seq.reset, prog := Prog.reset, queues := Vector.replicate 7 [], panFree := 0, dwFree := 0,
    latFree := 0, mx := Mx.reset, hatch := Hatch.reset, vec := Vec.reset, fmt := 0, pan := Pan.reset, dw := Dw.reset,
    latch := Latch.reset, comm := Comm.reset, out := Out.reset, pend := [], runs := [], nextRun := 0, wends := [], frz := [], frzIn := false, probeAt := 0, stopped := false,
    trace := Trace.reset, mirror := MirrorRoom.reset, ptabSel := 0, ctabSel := 0, w1c := 0 }

end Sys2Proof.Machine
end

