-- ==== Sys2Proof/Machine/WingState.lean ====
section
/-! DEFINITION. The state of one Wing with its Newel: clock, slip, freezes, throttle, DVFS point and Room map (chapters
01 to 03), and the tick, fault, debug and job state of the package (chapters 02, 13, 15, 16). -/

namespace Sys2Proof.Machine

/-- A frequency-change stop (R95): the reference edge at which the clock is gated, the ratio left and the ratio entered,
and when its first gc begins. -/
structure FreqStop where
  gateAt : Nat
  oldM   : Nat
  newM   : Nat
  since  : Nat
  deriving DecidableEq, Repr, Inhabited

/-- A line in the Corridor (R348 to R351): its command, where it stands and is bound, the gc of its next hop, whether it
enters from its Outlet, and from which side it reached this Room (0 lower column, 1 higher, 2 other row). -/
structure CorLine where
  word   : BitVec 128
  src    : RoomId
  dst    : RoomId
  row    : Nat
  col    : Nat
  at0    : Nat
  entering : Bool
  side   : Nat
  start  : Nat
  line   : Nat
  mask   : LineMask
  data   : Bytes
  poison : BitVec 32
  deriving DecidableEq, Repr, Inhabited

/-- A Wing (R36, R53, R54, R58, R59, R76, R90, R91, R93, R95, R122, R124, R353, R354, R357). Times are in quanta of the model's time base. `periods` counts periods of the Wing clock, `acyc` advancing gc,
`per0` and `ac0` their values at the boundary that began the schedule tick and `perB` at the latest boundary; `tickM` is the ratio at which that tick began. The current
gc is a throttle stop-cycle while `thr`; `frzSince` is the instant at which the present freeze began; `held` says that a Room held a freeze condition at its start. `stopPend`: a STOP waits for the
end of the Wing's frequency-change stop (R806). [DESIGN CHOICE: log 2.] -/
structure Wing where
  m        : Nat
  nextEdge : Nat
  period   : Nat
  clockOn  : Bool
  lock     : Bool
  holdover : Bool
  lag      : Bool
  prevStr  : Bool
  curStr   : Bool
  stopNext : Bool
  thr      : Bool
  held     : Bool
  acc      : Nat
  dutyT    : BitVec 8
  dutyP    : BitVec 8
  entryT   : Nat
  tempMax  : BitVec 16
  strLimit : Bool
  relSlow  : Bool
  periods  : Nat
  acyc     : Nat
  per0     : Nat
  ac0      : Nat
  perB     : Nat
  frzOn    : Bool
  frzLen   : Nat
  frzSince : Nat
  frzBits  : Option (BitVec 2)
  frzRead  : Option (RoomId × BitVec 16)
  frzRep   : Bool
  lateRec  : Bool
  active   : Bool
  done     : Bool
  doneNow  : Bool
  doneGc   : Nat
  doneTime : Nat
  doneRoom : Nat
  doneTag  : BitVec 16
  fstop    : Option FreqStop
  halted   : Bool
  stopPend : Bool
  thrGc    : BitVec 32
  strEvt   : BitVec 32
  strTick  : Nat
  frRefresh : BitVec 32
  frRetry  : BitVec 32
  frOther  : BitVec 32
  freqGc   : BitVec 32
  slipLast : BitVec 256
  slipTot  : BitVec 384
  budget   : Nat
  tickM    : Nat
  newM     : Nat
  colGood  : BitVec 13
  logCols  : BitVec 4
  roomPass : BitVec 26
  corr     : List CorLine
  w1c      : BitVec 64
  deriving DecidableEq, Repr, Inhabited

/-- Every field at the value R36, R53, R58, R59, R124 and R126 give for reset; the ratio is loaded from the configuration
image. [DESIGN CHOICE: log 4.] -/
def Wing.reset : Wing :=
  { m := 0, nextEdge := 0, period := 0, clockOn := false, lock := false, holdover := false, lag := false,
    prevStr := false, curStr := false, stopNext := false, thr := false, held := false, acc := 0, dutyT := 0,
    dutyP := 0, entryT := 0, tempMax := 0, strLimit := false, relSlow := false, periods := 0, acyc := 0, per0 := 0,
    ac0 := 0, perB := 0, frzOn := false, frzLen := 0, frzSince := 0, frzBits := none, frzRead := none, frzRep := false,
    lateRec := false, active := false, done := false, doneNow := false, doneGc := 0, doneTime := 0, doneRoom := 0,
    doneTag := 0, fstop := none, halted := false, stopPend := false, thrGc := 0, strEvt := 0, strTick := 0, frRefresh := 0, frRetry := 0,
    frOther := 0, freqGc := 0, slipLast := 0, slipTot := 0, budget := 0, tickM := 0, newM := 0, colGood := 0, logCols := 0, roomPass := 0,
    corr := [], w1c := 0 }

/-- The job states (R681). -/
inductive JState
  | off
  | selfTest
  | configured
  | loading
  | loaded
  | running
  | draining
  | done
  | faulted
  deriving DecidableEq, Repr, Inhabited

/-- R681: the code of a job state. -/
def JState.code : JState → Nat
  | .off => 0
  | .selfTest => 1
  | .configured => 2
  | .loading => 3
  | .loaded => 4
  | .running => 5
  | .draining => 6
  | .done => 7
  | .faulted => 8

/-- Why the Threshold holds a report (R749, R740): the code, effect class, Room (0x7F none), Wing, reporting block, tag
and body; `lost` marks one that found the queue full, which takes its effect unrecorded. -/
structure Report where
  code  : BitVec 16
  cls   : BitVec 2
  lroom : BitVec 7
  wing  : BitVec 2
  src   : BitVec 4
  tag   : BitVec 16
  body  : List (BitVec 64)
  lost  : Bool
  deriving DecidableEq, Repr, Inhabited

/-- The fault log (R746 to R750, R776). `jobCode` is the latest code since job start (R682). `log` holds records as 1,024-bit words keyed by entry. -/
structure Faults where
  queue    : List Report
  log      : SMap 1024
  count    : BitVec 48
  lastCode : BitVec 16
  jobCode  : BitVec 16
  readMark : BitVec 48
  overwrite : Bool
  drop     : Bool
  held     : Bool
  dropped  : BitVec 32
  unreadLost : BitVec 32
  deriving DecidableEq, Repr, Inhabited

def Faults.reset : Faults :=
  { queue := [], log := [], count := 0, lastCode := 0, jobCode := 0, readMark := 0, overwrite := false, drop := false, held := false,
    dropped := 0, unreadLost := 0 }

/-- Debug mode and the Smoke log (R768 to R771, R777). `log` holds records as 256-bit words keyed by entry. -/
structure Smoke where
  debug   : Bool
  drop    : Bool
  checkEn : BitVec 8
  count   : BitVec 32
  lost    : BitVec 32
  queue   : List (BitVec 256)
  log     : SMap 256
  deriving DecidableEq, Repr, Inhabited

def Smoke.reset : Smoke :=
  { debug := false, drop := false, checkEn := 0xFF, count := 0, lost := 0, queue := [], log := [] }

/-- The tick and the job (R40, R45, R46, R70, R71, R795, R812). `lrooms` is the Room count that the binary declares; `bound` is the rc of the next nominal boundary,
`lastBound` that of the latest. -/
structure Job where
  js        : JState
  smode     : BitVec 3
  rt        : Bool
  frozen    : Bool
  pend      : BitVec 2
  pendStick : BitVec 64
  tick      : BitVec 64
  stick     : BitVec 64
  boundTick : BitVec 64
  bound     : Nat
  lastBound : Nat
  ticking   : Bool
  missNow   : Bool
  missBound : BitVec 64
  droppedB  : Nat
  miss      : Bool
  overrun   : Bool
  missCount : BitVec 16
  slipMax   : BitVec 32
  runProfile : BitVec 4
  lrooms    : Nat
  seed      : BitVec 64
  t0        : BitVec 64
  startRc   : BitVec 64
  startRt   : Bool
  startSet  : Bool
  stopped   : Bool
  ended     : Bool
  deriving DecidableEq, Repr, Inhabited

/-- [DESIGN CHOICE: log 4; DEDUCED: log 5.] -/
def Job.reset : Job :=
  { js := .selfTest, smode := 0, rt := false, frozen := false, pend := 0, pendStick := 0, tick := 0, stick := 0,
    boundTick := 0, bound := 0, lastBound := 0, ticking := false, missNow := false, missBound := 0,
    droppedB := 0, miss := false, overrun := false, missCount := 0, slipMax := 0, runProfile := 0, lrooms := 0,
    seed := 0, t0 := 0, startRc := 0, startRt := false, startSet := false, stopped := false,
    ended := false }

/-- A curve table as a slot holds it (R281): its header, its segments, SOURCE (1: loaded binary). -/
structure CTable where
  header : BitVec 256
  segs   : List (BitVec 128)
  source : Bool
  deriving DecidableEq, Repr, Inhabited

/-- The table slots, with identical contents in every enabled Room (R142, R280), the configuration tables to which they
return (R144), and the 64-bit table words that hold a double-bit or a single-bit error (pattern slot × 128 + word, curve
slot × 132 + word). -/
structure Tables where
  ptab    : Vector (Option PTable) 64
  ctab    : Vector (Option CTable) 32
  cfgPtab : Vector (Option PTable) 64
  cfgCtab : Vector (Option CTable) 32
  ptabDue : SMap 1
  ptabSbe : SMap 1
  ctabDue : SMap 1
  ctabSbe : SMap 1
  deriving DecidableEq, Repr, Inhabited

def Tables.reset : Tables :=
  { ptab := Vector.replicate 64 none, ctab := Vector.replicate 32 none, cfgPtab := Vector.replicate 64 none,
    cfgCtab := Vector.replicate 32 none, ptabDue := [], ptabSbe := [], ctabDue := [], ctabSbe := [] }

/-- Mirror mode (R758 to R767, R778): the fields of THRESH_MIRROR_CTL, the unmatched records of both twins, the first
mismatch with what the log exchange found, and the records sent. -/
structure Mirror where
  enable   : Bool
  port     : PortId
  live     : Bool
  mismatch : Bool
  stopLate : Bool
  lag      : Bool
  matched  : BitVec 32
  stopTick : BitVec 64
  dropped  : BitVec 32
  own      : List MirrorRec
  twin     : List MirrorRec
  twinTick : BitVec 64
  bad      : Option (MirrorRec × MirrorRec)
  located  : Bool
  index    : Nat
  tag      : BitVec 16
  scyc     : BitVec 32
  twinTag  : BitVec 16
  twinScyc : BitVec 32
  sent     : List MirrorRec
  stopSent : Option (BitVec 64)
  deriving DecidableEq, Repr, Inhabited

def Mirror.reset : Mirror :=
  { enable := false, port := 0, live := false, mismatch := false, stopLate := false, lag := false, matched := 0,
    stopTick := 0, dropped := 0, own := [], twin := [], twinTick := 0, bad := none, located := false, index := 0,
    tag := 0, scyc := 0, twinTag := 0, twinScyc := 0, sent := [], stopSent := none }

end Sys2Proof.Machine
end

