-- ==== Sys2Proof/Machine/CellarState.lean ====
section
/-! DEFINITION. The state of the Cellars with HBM (chapter 10) and of the Porches with their routers, rank table and
collective engines (chapter 12). -/

namespace Sys2Proof.Machine

/-! ## Cellars -/

/-- An entry of a stack queue (R471 to R474): the fetch or write-back request it serves (none: an engine's, a Porch's or
the Mudroom's access), the companion read it answers with its RID and MULTI (R666), its address and bytes, the bytes it writes, the 64-byte codewords it writes poisoned, its
refresh-held bit (R480) and its source word (R748). -/
structure QItem where
  req     : Option Nat
  ans     : Option (BitVec 8 × Bool)
  addr    : Nat
  n       : Nat
  writes  : List (Nat × Bytes)
  bad     : List Nat
  refresh : Bool
  src     : BitVec 64
  deriving DecidableEq, Repr, Inhabited

/-- An HBM4E stack (R465, R471 to R485). Times are rc: the end of the window that is open, that of the open extra window,
the start of the latest window and of the latest fixed window. `scrub` is the next
codeword of the scrubber and `scrubFrom` the rc at which its period began. -/
structure Stack where
  trained   : Bool
  temp      : BitVec 12
  level     : Nat
  queue     : List QItem
  winEnd    : Nat
  extraEnd  : Nat
  lastWin   : Nat
  fixedAt   : Nat
  scrub     : Nat
  scrubFrom : Nat
  passes    : Nat
  deriving DecidableEq, Repr, Inhabited

/-- [DESIGN CHOICE: log 4; DESIGN CHOICE: log 90.] -/
def Stack.reset : Stack :=
  { trained := false, temp := 0, level := 0, queue := [], winEnd := 0, extraEnd := 0, lastWin := 0, fixedAt := 0,
    scrub := 0, scrubFrom := 0, passes := 0 }

/-- An engine operation (R493 to R499): Room, opcode, command words, its two stream descriptors (XPOSE: source and
destination; else table and index), element size. -/
structure EngOp where
  room  : RoomId
  op    : Nat
  word  : BitVec 128
  desc  : BitVec 256
  desc2 : BitVec 256
  deriving DecidableEq, Repr, Inhabited

/-- The operation an engine executes: the destination addresses and Pantry lines still to be read (SCATTER), the arrivals
of a GATHER still to be written, companion writes without their CMP, the union of the arrival bits (R501), and the granules
whose accesses have completed (R770). -/
structure EngRun where
  op    : EngOp
  rows  : List (Nat × Nat)
  out   : Nat
  cmps  : Nat
  bits  : BitVec 2
  gran  : List Nat
  deriving DecidableEq, Repr, Inhabited

/-- An engine with its queue of 24 operations (R492). -/
structure Engine where
  queue : List EngOp
  cur   : Option EngRun
  deriving DecidableEq, Repr, Inhabited

/-- A Cellar (R510 to R514). `mudKey` and `mudBusy` are KEY_LOADED and CH_BUSY of its Mudroom. -/
structure Cellar where
  stk       : Vector Stack 2
  xpose     : Engine
  gs        : Engine
  corr      : Bool
  due       : Bool
  poisonRd  : Bool
  lastAddr  : BitVec 39
  corrCount : BitVec 16
  dueCount  : BitVec 16
  ondie     : BitVec 16
  hours     : BitVec 8
  behind    : Bool
  extraWin  : BitVec 16
  opsDone   : BitVec 32
  mudKey    : Bool
  mudBusy   : BitVec 8
  mudUnits  : BitVec 32
  w1c       : BitVec 64
  deriving DecidableEq, Repr, Inhabited

/-- [DESIGN CHOICE: log 4; DESIGN CHOICE: log 90.] -/
def Cellar.reset : Cellar :=
  { stk := Vector.replicate 2 Stack.reset, xpose := { queue := [], cur := none }, gs := { queue := [], cur := none },
    corr := false, due := false, poisonRd := false, lastAddr := 0, corrCount := 0, dueCount := 0, ondie := 0,
    hours := 0x18, behind := false, extraWin := 0, opsDone := 0, mudKey := false, mudBusy := 0, mudUnits := 0, w1c := 0 }

/-- Where a Dumbwaiter request stands (R441 to R444): its lines are still to be read (write-back); on its way; in a stack
queue or, for a companion address, sent over Palbo; served; its return is in the arrival buffer. -/
inductive ReqPhase
  | reading
  | sent
  | queued
  | served
  | writing
  deriving DecidableEq, Repr, Inhabited

/-- A Dumbwaiter request in flight (R436, R441): its Room and stream, its kind, address, bytes and first line; the lines
still to be read or written; its data; whether it was withheld (R442) or suppressed (R443); its arrival bits; for a companion address the
flits still to be answered. -/
structure Req where
  id      : Nat
  room    : RoomId
  stream  : Nat
  ctx     : Nat
  tag     : BitVec 16
  fetch   : Bool
  addr    : Nat
  n       : Nat
  line    : Nat
  left    : List Nat
  data    : List (Bytes × BitVec 32)
  phase   : ReqPhase
  withheld : Bool
  retried : Bool
  refresh : Bool
  flits   : List Nat
  deriving DecidableEq, Repr, Inhabited

/-- The memory side of the package: the Cellars, HBM by byte, the 64-byte codewords with an uncorrectable or poison
pattern and those with a correctable error, the requests in flight, the region table (R486), the loader's working data,
and the lines that the Cellars and Porches hold for a Room whose arrival buffer is full (R421). -/
structure Mem where
  cellars : Vector Cellar 4
  hbm     : SMap 8
  hbmBad  : SMap 1
  hbmSbe  : SMap 1
  reqs    : List Req
  nextReq : Nat
  regions : List (BitVec 128)
  deriving DecidableEq, Repr, Inhabited

/-- [DESIGN CHOICE: log 88.] -/
def Mem.reset : Mem :=
  { cellars := Vector.replicate 4 Cellar.reset, hbm := [], hbmBad := [], hbmSbe := [], reqs := [], nextReq := 0,
    regions := [] }

/-! ## Porches -/

/-- A packet (R584): header, payload, the bits of a line that it writes, and the poisoned words of the payload. -/
structure Pkt where
  hdr    : BitVec 128
  data   : Bytes
  mask   : LineMask
  poison : BitVec 32
  deriving DecidableEq, Repr, Inhabited

/-- One SSEQ series of a port (R617, R618): the next number to send, the slots sent and not acknowledged, the next number
expected, and whether it requests a replay. -/
structure Series where
  next    : BitVec 8
  unacked : List (BitVec 8 × Pkt)
  expect  : BitVec 8
  nak     : Bool
  deriving DecidableEq, Repr, Inhabited

def Series.reset : Series := { next := 0, unacked := [], expect := 0, nak := false }

/-- A fabric port (R590, R604, R617 to R624, R645). `bsOut` are the back-stair buffers of the output, `bsIn` what waits
at the input, `bsCred` the credits held and `crb` those to return, by lane; `stwCred`, `crs` and `stwOut` the
same for Stairwell messages; `downSince` the rc from which it is not live, `lost` that its loss has been declared,
`replayAt` and `retrainAt` the rc of its replays and retrains. -/
structure Port where
  enable     : Bool
  dim        : BitVec 2
  dir        : Bool
  live       : Bool
  fenced     : Bool
  retraining : Bool
  mirror     : Bool
  delay      : BitVec 16
  rtt        : Nat
  retrains   : BitVec 8
  replays    : BitVec 32
  dser       : Series
  sser       : Series
  bsOut      : Vector (List Pkt) 2
  bsIn       : Vector (List Pkt) 2
  bsCred     : Vector Nat 2
  crb        : Vector Nat 2
  stwOut     : List Pkt
  stwCred    : Vector Nat 2
  crs        : Vector Nat 2
  downSince  : Nat
  lost       : Bool
  replayAt   : List Nat
  retrainAt  : List Nat
  deriving DecidableEq, Repr, Inhabited

/-- [DESIGN CHOICE: log 4.] -/
def Port.reset : Port :=
  { enable := false, dim := 0, dir := false, live := false, fenced := false, retraining := false, mirror := false,
    delay := 0, rtt := 0, retrains := 0, replays := 0, dser := Series.reset, sser := Series.reset,
    bsOut := Vector.replicate 2 [], bsIn := Vector.replicate 2 [], bsCred := Vector.replicate 2 2,
    crb := Vector.replicate 2 0, stwOut := [], stwCred := Vector.replicate 2 4,
    crs := Vector.replicate 2 0, downSince := 0, lost := false, replayAt := [],
    retrainAt := [] }

/-- An entry of the acknowledgement table (R612): source, the Room the packets were delivered to, the count and the
RETRIED bits. -/
structure AckEntry where
  srank   : BitVec 12
  sroom   : BitVec 7
  droom   : BitVec 7
  count   : Nat
  retried : Bool
  deriving DecidableEq, Repr, Inhabited

/-- One line of a collective instance (R638 to R640): its destination and tag, the own contribution, the partials received
by member number, whether the partial was passed on, the result, whether it is written. -/
structure CollLine where
  idx     : Nat
  dest    : Nat
  tag     : BitVec 16
  own     : Option Bytes
  parts   : List (Nat × Bytes)
  sent    : Bool
  result  : Option Bytes
  written : Bool
  deriving DecidableEq, Repr, Inhabited

structure CollInst where
  no    : Nat
  lines : List CollLine
  deriving DecidableEq, Repr, Inhabited

/-- A collective context (R636, R638, R641): its entry, the lowest instance not yet complete, the lines contributed since
job start, and the instances held. -/
structure CollCtx where
  entry : BitVec 128
  first : Nat
  count : Nat
  insts : List CollInst
  deriving DecidableEq, Repr, Inhabited

/-- A line on its way to the collective engine of its home Porch (R637). -/
structure Contrib where
  ctx  : Nat
  room : RoomId
  tag  : BitVec 16
  line : Nat
  data : Bytes
  deriving DecidableEq, Repr, Inhabited

/-- A Porch (R587, R593 to R607, R612, R636 to R646). `inq` are the arriving packets with their inputs (0 to 15 ports, 16
to 23 bridge lanes), `cross` the ejected packets on their way to the home Wings, `resv` the reserved ejection entries,
`ejq` the CREDIT, ACK and collective packets delivered and awaiting their step, `bridge` the back-stair buffers of the
bridge direction that leaves here. -/
structure Porch where
  cfg       : BitVec 128
  entries   : SMap 64
  entryIdx  : BitVec 12
  ports     : Vector Port 16
  inq       : List (Nat × Pkt)
  hold      : List Pkt
  bridge    : Vector (List Pkt) 2
  returns   : List Pkt
  acks      : List AckEntry
  ackOut    : List Pkt
  collOut   : List Pkt
  lastWing  : Bool
  cross     : List Pkt
  resv      : List (Nat × Pkt)
  ejq       : List Pkt
  contrib   : List Contrib
  coll      : Vector CollCtx 16
  stage0    : Option (BitVec 64)
  stage1    : Option (BitVec 64)
  collSel   : BitVec 4
  injected  : BitVec 64
  ejected   : BitVec 64
  deflected : BitVec 64
  bsEntries : BitVec 64
  returned  : BitVec 32
  unreach   : BitVec 16
  holdMax   : BitVec 8
  refusals  : BitVec 8
  deriving DecidableEq, Repr, Inhabited

/-- [DESIGN CHOICE: log 4.] -/
def Porch.reset : Porch :=
  { cfg := 0, entries := [], entryIdx := 0, ports := Vector.replicate 16 Port.reset, inq := [], hold := [],
    bridge := Vector.replicate 2 [], returns := [], acks := [], ackOut := [], collOut := [], lastWing := false,
    cross := [], resv := [], ejq := [], contrib := [],
    coll := Vector.replicate 16 { entry := 0, first := 0, count := 0, insts := [] }, stage0 := none, stage1 := none,
    collSel := 0, injected := 0, ejected := 0, deflected := 0, bsEntries := 0, returned := 0, unreach := 0,
    holdMax := 0, refusals := 0 }

/-- The fabric: both Porches (R578, R593). -/
structure Fab where
  porches : Vector Porch 2
  w1c     : Vector (BitVec 64) 2
  deriving DecidableEq, Repr, Inhabited

def Fab.reset : Fab := { porches := Vector.replicate 2 Porch.reset, w1c := Vector.replicate 2 0 }

end Sys2Proof.Machine
end

