-- ==== Sys2Proof/Machine/ThreshState.lean ====
section
/-! DEFINITION. The state of the Palbo link (chapter 13) and of the Threshold: boot, keys, configuration, privilege table,
Guestbook, Stairwell, management ports, reference monitor, rails and power domains (chapters 03, 08, 12, 14, 16, 17). -/

namespace Sys2Proof.Machine

/-! ## Palbo -/

/-- What a device request over Palbo serves (R654): a fetch's flit, a write-back, an engine's write, a companion-bound
Outlet line with its number, a reply line (`final` with PHASE 2), the Doorplate, a line of a report of a slot, or a
monitor. -/
inductive PUse
  | fetch (req part : Nat)
  | put (req : Nat)
  | engine (cellar : Nat) (xpose : Bool)
  | outlet (n : Nat)
  | reply
  | doorplate
  | attest (slot : Nat) (seq : BitVec 32)
  | mon (slot : Nat)
  deriving DecidableEq, Repr, Inhabited

/-- A device request outstanding (R659): identifier, message, companion offset, MULTI, and the rc at which it left. -/
structure PReq where
  rid   : BitVec 8
  op    : Nat
  addr  : Nat
  multi : Bool
  use   : PUse
  sentAt : Nat
  deriving DecidableEq, Repr, Inhabited

/-- A flit (R653). -/
structure PFlit where
  hdr  : BitVec 128
  body : Bytes
  deriving DecidableEq, Repr, Inhabited

/-- A message of the device on its way (R654): for a request what it serves, for a response its RID and STATUS. -/
structure PMsg where
  op     : Nat
  addr   : Nat
  multi  : Bool
  data   : Bytes
  poison : Bool
  use    : Option PUse
  rid    : BitVec 8
  status : Nat
  deriving DecidableEq, Repr, Inhabited

/-- A Job Card as the device accepted it (R674): its slot, sequence number, command and arguments, and whether every rank
of the job is LOADED. -/
structure JobCard where
  slot  : Nat
  seq   : BitVec 32
  opc   : BitVec 8
  arg0  : BitVec 64
  arg1  : BitVec 64
  arg2  : BitVec 64
  arg3  : BitVec 256
  deriving DecidableEq, Repr, Inhabited

/-- A Doorplate write that waits in P0 (R684): its image, and the number of the first companion-bound line that it does not
wait for. -/
structure Plate where
  image : Bytes
  mark  : Nat
  deriving DecidableEq, Repr, Inhabited

/-- The Palbo link (R651 to R692). `waiting` are messages without a credit or a place in the replay buffer, `comp` the
companion's requests still to be answered, `armed` the watches, `last` the last accepted sequence of each slot, `card`
the card being acted on, `reread` a card to be read again with the rc of that read, `starts` the STARTs whose PHASE 2 is
due, `reqRet` and `monRet` the credits to be returned to the companion, `attests` the ATTEST cards whose record waits in the Guestbook's queue. -/
structure Palbo where
  cfg        : BitVec 128
  live       : Bool
  retraining : Bool
  fenced     : Bool
  viol       : Bool
  access     : Bool
  lastCode   : BitVec 8
  retrains   : BitVec 8
  violSince  : BitVec 8
  replays    : BitVec 32
  cards      : BitVec 32
  rejected   : BitVec 16
  rereads    : BitVec 16
  refused    : BitVec 32
  doorplates : BitVec 32
  replaced   : BitVec 32
  dropped    : BitVec 32
  reqCred    : Nat
  monCred    : Nat
  reqRet     : Nat
  monRet     : Nat
  txNext     : BitVec 8
  unacked    : List (BitVec 8 × PFlit)
  expect     : BitVec 8
  nak        : Bool
  waiting    : List PMsg
  reqs       : List PReq
  comp       : List (BitVec 8)
  replayAt   : List Nat
  retrainAt  : List Nat
  downSince  : Nat
  armed      : BitVec 64
  last       : Vector (BitVec 32) 64
  card       : Option JobCard
  reread     : Option (Nat × Nat)
  starts     : List JobCard
  attests    : List JobCard
  lineSeq    : Nat
  dseq       : BitVec 32
  plate      : Option Plate
  cardSeq    : BitVec 32
  cardSlot   : BitVec 6
  cardStatus : BitVec 4
  localDone  : Nat
  w1c        : BitVec 64
  deriving DecidableEq, Repr, Inhabited

/-- [DESIGN CHOICE: log 4.] -/
def Palbo.reset : Palbo :=
  { cfg := 0, live := false, retraining := false, fenced := false, viol := false, access := false, lastCode := 0,
    retrains := 0, violSince := 0, replays := 0, cards := 0, rejected := 0, rereads := 0, refused := 0, doorplates := 0,
    replaced := 0, dropped := 0, reqCred := 0, monCred := 0, reqRet := 0, monRet := 0, txNext := 0, unacked := [], expect := 0, nak := false,
    waiting := [], reqs := [], comp := [], replayAt := [], retrainAt := [], downSince := 0, armed := 0,
    last := Vector.replicate 64 0, card := none, reread := none, starts := [], attests := [], lineSeq := 0, dseq := 0, plate := none,
    cardSeq := 0, cardSlot := 0, cardStatus := 0, localDone := 0, w1c := 0 }

/-! ## Threshold -/

/-- An event of the Guestbook's pending queue (R724, R728): the code, origin, rank or slot, Wing, the tick and gc at which it
occurred, the job state and service mode before it, its body, and for a FAULT event its Room and REPEAT. -/
structure GbEvent where
  event  : Nat
  origin : Nat
  oid    : Nat
  wing   : Nat
  tick   : BitVec 64
  gc     : Nat
  js     : Nat
  smode  : Nat
  parts  : Nat
  body   : Bytes
  deriving DecidableEq, Repr, Inhabited

/-- The Guestbook (R723 to R738). `recs` holds records and `hashes` the chain values H_k, keyed by entry. -/
structure Guest where
  count     : BitVec 48
  readMark  : BitVec 48
  overwrite : Bool
  faultDrop : Bool
  queue     : List GbEvent
  booted    : Bool
  unreadLost : BitVec 32
  dropped   : BitVec 32
  head      : BitVec 512
  anchor    : BitVec 512
  oldest    : BitVec 48
  recs      : SMap 512
  hashes    : SMap 512
  nextAt    : Nat
  deriving DecidableEq, Repr, Inhabited

def Guest.reset : Guest :=
  { count := 0, readMark := 0, overwrite := false, faultDrop := false, queue := [], booted := false, unreadLost := 0,
    dropped := 0, head := 0, anchor := 0, oldest := 0, recs := [], hashes := [], nextAt := 0 }

/-- The configuration image in use (R696 to R701): PARAM, the DVFS, throttle and power-sequencing tables, the owner keys,
the privilege table, version, hash and owner. -/
structure CfgImage where
  param   : BitVec 512
  dvfs    : List (BitVec 64)
  therm   : List (BitVec 32)
  power   : List (BitVec 32)
  pwrseq  : List (BitVec 64)
  keys    : List Bytes
  priv    : List (BitVec 64)
  version : BitVec 64
  hash    : BitVec 512
  owner   : BitVec 512
  deriving DecidableEq, Repr, Inhabited

/-- [DESIGN CHOICE: log 4.] -/
def CfgImage.reset : CfgImage :=
  { param := 0, dvfs := [], therm := [], power := [], pwrseq := [], keys := [], priv := [], version := 0, hash := 0,
    owner := 0 }

/-- The boot and the key store (R702 to R711, R735). -/
structure Boot where
  src       : Bool
  valid     : Bool
  idOk      : Bool
  helperSrc : Bool
  reasonA   : BitVec 16
  reasonB   : BitVec 16
  img       : CfgImage
  seed      : Bytes
  idsk      : Bytes
  dk        : Bytes
  idpk      : Bytes
  ek        : Bytes
  step      : Nat
  parked    : Option BootIn
  deriving DecidableEq, Repr, Inhabited

def Boot.reset : Boot :=
  { src := false, valid := false, idOk := false, helperSrc := false, reasonA := 0, reasonB := 0, img := CfgImage.reset,
    seed := [], idsk := [], dk := [], idpk := [], ek := [], step := 0, parked := none }

/-- A loaded binary (R372, R387, R389, R406). `sealed` are the pages that an HWRAP section wrote. -/
structure Bin where
  lrooms  : Nat
  profile : Nat
  imageId : BitVec 64
  hash    : BitVec 512
  base    : Nat
  pages   : Nat
  cmpBase : Nat
  cmpLen  : Nat
  cmpNeed : Nat
  sealed_ : List Nat
  ratios  : List Nat
  deriving DecidableEq, Repr, Inhabited

/-- The loader (R384 to R409): THRESH_LOAD_STATUS, the load log, the binary, and the rest of the job's image. -/
structure Loader where
  status : BitVec 256
  fail   : Bool
  log    : SMap 256
  logLen : Nat
  bin    : Option Bin
  deriving DecidableEq, Repr, Inhabited

def Loader.reset : Loader := { status := 0, fail := false, log := [], logLen := 0, bin := none }

/-- The Stairwell at the Threshold (R796 to R812): THRESH_STW_CTL, THRESH_STW_STATUS, the number of the next message, the
messages delivered and awaiting their step, the messages this package originated (most recent last), the drain reports of
the present and the former collection (R592), and the peer fault that takes effect at the next boundary (R744). -/
structure Stw where
  cmd      : BitVec 2
  lastSop  : BitVec 8
  late     : Bool
  discard  : Bool
  lastSeq  : BitVec 16
  acks     : BitVec 13
  naks     : BitVec 13
  sent     : BitVec 32
  received : BitVec 32
  seqNo    : BitVec 16
  inbox    : List Pkt
  reports  : List (BitVec 12 × BitVec 64 × BitVec 64)
  former   : Option (BitVec 64 × BitVec 64)
  drainAt  : Nat
  draining : Bool
  peer     : Option (BitVec 12 × BitVec 16)
  stwWait  : Option (BitVec 12 × BitVec 16)
  probes   : List (BitVec 16 × Nat)
  deriving DecidableEq, Repr, Inhabited

def Stw.reset : Stw :=
  { cmd := 0, lastSop := 0, late := false, discard := false, lastSeq := 0, acks := 0, naks := 0, sent := 0,
    received := 0, seqNo := 0, inbox := [], reports := [], former := none, drainAt := 0, draining := false, peer := none,
    stwWait := none, probes := [] }

/-- A management port's capture (R786): the port, the register or record it read word 0 of, its words, and the word it read
last. -/
structure Capture where
  origin : Origin
  base   : Nat
  words  : List (BitVec 64)
  lastW  : Nat
  deriving DecidableEq, Repr, Inhabited

/-- The management ports (R786, R793, R794). `i3cWait` is a board request that is not complete, `i3cOut` what the latest
private read returned (empty: NACKed); the rest are the fields of the test port's data register. -/
structure Ports where
  caps    : List Capture
  i3cDyn  : Option (BitVec 7)
  i3cWait : Option Bytes
  i3cResp : BitVec 8
  i3cData : BitVec 64
  i3cOut  : Bytes
  testAddr : BitVec 48
  testOp   : BitVec 2
  testResp : BitVec 3
  testData : BitVec 64
  testBusy : Bool
  deriving DecidableEq, Repr, Inhabited

/-- [DESIGN CHOICE: log 4.] -/
def Ports.reset : Ports :=
  { caps := [], i3cDyn := none, i3cWait := none, i3cResp := 5, i3cData := 0, i3cOut := [], testAddr := 0, testOp := 0,
    testResp := 0, testData := 0, testBusy := false }

/-- Reference, job clock and alignment (R102 to R110, R125, R629 to R635, R648). `oscNum` is the oscillator's latest count
over 10,000 rc; `jclkSet` the value that THRESH_JCLK takes at its next rc edge; `tickSet` and `delta` the count that
THRESH_TICK takes at the boundary that ends a lengthened period, and δ (R634). -/
structure Clock where
  jclk     : BitVec 64
  jclkSet  : Option (BitVec 64)
  tickSet  : Option (BitVec 64)
  delta    : Nat
  aligned  : Bool
  alignFail : Bool
  realigned : Bool
  residual : BitVec 8
  checks   : BitVec 32
  refOk    : Bool
  refLoss  : Bool
  outOfStep : Bool
  expired  : Bool
  holdRc   : BitVec 24
  losses   : BitVec 32
  oscNum   : Nat
  holdover : Bool
  stopAll  : Bool
  deriving DecidableEq, Repr, Inhabited

/-- [DESIGN CHOICE: log 4.] -/
def Clock.reset : Clock :=
  { jclk := 0, jclkSet := none, tickSet := none, delta := 0, aligned := false, alignFail := false, realigned := false, residual := 0, checks := 0, refOk := false,
    refLoss := false, outOfStep := false, expired := false, holdRc := 0, losses := 0, oscNum := 6500, holdover := false,
    stopAll := false }

/-- Power domains, rails and pins (R111 to R114, R126, R824 to R836). `codes` are the latest codes strobed by SEL, `strobes`
the strobes of the bus until 8 rc after their rising edge (rc at which the request
fell due, rc of the rising edge, SEL, code), `rg` the rail-good inputs, `porst` that PORST# is high. -/
structure Power where
  cellar   : BitVec 4
  porch    : BitVec 2
  palbo    : Bool
  spine    : BitVec 4
  codes    : Vector (BitVec 8) 8
  strobes  : List (Nat × Nat × Nat × BitVec 8)
  rg       : BitVec 8
  porst    : Bool
  thermTrip : Bool
  grade96  : Bool
  stepB0   : Bool
  deriving DecidableEq, Repr, Inhabited

/-- Grade MX-N9-96 and stepping B0 (R1, R5); every rail at its board default. [DESIGN CHOICE: log 4; DEDUCED: log 5.] -/
def Power.reset : Power :=
  { cellar := 0, porch := 0, palbo := false, spine := 0, codes := Vector.replicate 8 0,
    strobes := [], rg := 0, porst := false, thermTrip := false, grade96 := true, stepB0 := true }

/-- The Threshold and P0's companion side. -/
structure Thr where
  boot   : Boot
  guest  : Guest
  load   : Loader
  stw    : Stw
  ports  : Ports
  clk    : Clock
  pwr    : Power
  progress : BitVec 64
  prseq  : BitVec 64
  w1c    : BitVec 64
  deriving DecidableEq, Repr, Inhabited

def Thr.reset : Thr :=
  { boot := Boot.reset, guest := Guest.reset, load := Loader.reset, stw := Stw.reset, ports := Ports.reset,
    clk := Clock.reset, pwr := Power.reset, progress := 0, prseq := 0, w1c := 0 }

end Sys2Proof.Machine
end

