-- ==== Sys2Proof/Machine/State.lean ====
section
/-! DEFINITION. The state of the MX-N9: everything the spec gives the package, and the commands that wait. -/

namespace Sys2Proof.Machine

/-- The model never stops with a fault: every fault of the catalogue (R752) is a report and an effect on the state. [DESIGN CHOICE: log 8.] -/
inductive Fault
  /-- Raised by no command and by no passage of time; it only keeps the type inhabited. Safe. -/
  | none
  deriving DecidableEq, Repr, Inhabited

/-- Why a command is refused. [DESIGN CHOICE: log 8.] -/
inductive Refusal
  /-- Raised by an arm of Dispatch.lean for a command without a meaning. Safe. -/
  | notModelled (mnemonic : String)
  deriving DecidableEq, Repr, Inhabited

/-- The package. [DESIGN CHOICE: log 3.] -/
structure State where
  pending : List Instr
  now     : Nat
  rc      : Nat
  free    : Nat
  rooms   : Vector Room 96
  wings   : Vector Wing 4
  tabs    : Tables
  job     : Job
  flt     : Faults
  smoke   : Smoke
  mir     : Mirror
  fab     : Fab
  mem     : Mem
  pal     : Palbo
  thr     : Thr
  deriving DecidableEq, Repr, Inhabited

/-- The machine right after reset. [DESIGN CHOICE: log 4; DEDUCED: log 5.] -/
def State.reset : State :=
  { pending := [], now := 0, rc := 0, free := 0, rooms := Vector.replicate 96 (Room.reset false),
    wings := Vector.replicate 4 Wing.reset, tabs := Tables.reset, job := Job.reset, flt := Faults.reset,
    smoke := Smoke.reset, mir := Mirror.reset, fab := Fab.reset, mem := Mem.reset,
    pal := Palbo.reset, thr := Thr.reset }

end Sys2Proof.Machine
end

