-- ==== Sys2Proof/Machine/Ops.lean ====
section
/-! DEFINITION. The named operations of the machine: access to Rooms and Wings, fault reports, Smoke reports, trace
capture, Pantry accesses by both ports, and the start of a unit command. -/

namespace Sys2Proof.Machine

/-! ## Rooms and Wings -/

/-- The Wing of a logical Room (R30). -/
def wingOf (r : RoomId) : WingId :=
  if h : r.val < 88 then ⟨r.val / 22, by omega⟩ else ⟨(r.val - 88) / 2, by omega⟩

/-- The logical column of a Room (R30). -/
def colOf (r : RoomId) : Nat := if r.val < 88 then r.val % 22 / 2 else 11

/-- The row of a Room (R30). -/
def rowOf (r : RoomId) : Nat := r.val % 2

def State.room (s : State) (r : RoomId) : Room := s.rooms[r.val]

def State.setRoom (s : State) (r : RoomId) (rm : Room) : State := { s with rooms := s.rooms.set r.val rm }

def State.modRoom (s : State) (r : RoomId) (f : Room → Room) : State := s.setRoom r (f (s.room r))

def State.wing (s : State) (w : WingId) : Wing := s.wings[w.val]

def State.setWing (s : State) (w : WingId) (wg : Wing) : State := { s with wings := s.wings.set w.val wg }

def State.modWing (s : State) (w : WingId) (f : Wing → Wing) : State := s.setWing w (f (s.wing w))

/-- Every logical Room number. -/
def allRooms : List RoomId := List.finRange 96

/-- The logical Rooms of a Wing. -/
def roomsOf (w : WingId) : List RoomId := allRooms.filter (fun r => wingOf r = w)

/-- Is the Room one of those that the package enables and switches on? -/
def State.roomUp (s : State) (r : RoomId) : Bool := (s.room r).on

/-- Does some Room of the Wing hold a freeze condition (R354)? -/
def State.frozenW (s : State) (w : WingId) : Bool := (roomsOf w).any (fun r => !(s.room r).frz.isEmpty)

/-- Is the present gc of the Wing advancing (R54, R354)? -/
def State.advancing (s : State) (w : WingId) : Bool :=
  let g := s.wing w
  g.clockOn && !g.thr && !g.halted && !g.held && g.fstop.isNone && !s.frozenW w

/-- The schedule cycle of a Room's Wing, counted absolutely. -/
def State.cyc (s : State) (r : RoomId) : Nat := (s.wing (wingOf r)).acyc

/-- A fresh number for a value the spec leaves open. [DESIGN CHOICE: log 3; DEDUCED: log 76.] -/
def State.tickFree (s : State) : State := { s with free := s.free + 1 }

/-- The package's own job rank (R643). -/
def State.ownRank (s : State) : BitVec 12 := s.fab.porches[0].cfg.extractLsb' 0 12

/-- The outcome of a command that makes `t` of the package: a command takes no time and sends no command, so the queue and
the clocks stand as they stood (95). [DESIGN CHOICE: log 1.] -/
def State.done (s t : State) : Host.Outcome State Fault Refusal :=
  .next { t with pending := s.pending, now := s.now, rc := s.rc }

/-! ## Command fields (R311) -/

def opcodeOf (c : BitVec 128) : Nat := field c 0 8
def unitOf (c : BitVec 128) : Nat := field c 8 4
def tagOf (c : BitVec 128) : BitVec 16 := c.extractLsb' 16 16

/-- "Command" as two body items (R747). -/
def cmdWords (c : BitVec 128) : List (BitVec 64) := [c.extractLsb' 0 64, c.extractLsb' 64 64]

/-! ## Fault codes (R752) -/

def fcFormat : Nat := 0x2001
def fcPtabDue : Nat := 0x2002
def fcCtabDue : Nat := 0x2003
def fcMmField : Nat := 0x2011
def fcMmLayout : Nat := 0x2012
def fcMmNotReady : Nat := 0x2013
def fcMmFormat : Nat := 0x2014
def fcMmAxis : Nat := 0x2015
def fcHatchOwner : Nat := 0x2016
def fcVecField : Nat := 0x2021
def fcVecLayout : Nat := 0x2022
def fcVecCurve : Nat := 0x2023
def fcSeqField : Nat := 0x3001
def fcSeqStruct : Nat := 0x3002
def fcDescDue : Nat := 0x3003
def fcDescKind : Nat := 0x3004
def fcDescField : Nat := 0x3005
def fcDescRange : Nat := 0x3006
def fcOutField : Nat := 0x3011
def fcOutRoute : Nat := 0x3012
def fcOutConflict : Nat := 0x3013
def fcCorridor : Nat := 0x3014
def fcPanOwner : Nat := 0x4001
def fcPanConflict : Nat := 0x4002
def fcPanGated : Nat := 0x4003
def fcPanOverrun : Nat := 0x4004
def fcPanDue : Nat := 0x4005
def fcPanField : Nat := 0x4006
def fcDwField : Nat := 0x4007
def fcHbmDue : Nat := 0x5002
def fcXgField : Nat := 0x5003
def fcLatOverflow : Nat := 0x6001
def fcLatUnderflow : Nat := 0x6002
def fcLatStale : Nat := 0x6003
def fcLatDiscard : Nat := 0x6004
def fcLatTimeout : Nat := 0x6005
def fcLatField : Nat := 0x6006
def fcLatBusy : Nat := 0x6007
def fcMsgNochan : Nat := 0x6011
def fcDrainField : Nat := 0x6012
def fcMsgPayload : Nat := 0x6013
def fcMsgHandler : Nat := 0x6014
def fcMsgSender : Nat := 0x6015
def fcMsgOverrun : Nat := 0x6016

/-- A report is queued for the Threshold; with the 64-entry queue full it is lost to the log (R749), unless it can be
coalesced with the latest record, which FAULT_REPORT_ARRIVE decides. [DESIGN CHOICE: log 31; DESIGN CHOICE: log 89.] -/
def State.report (s : State) (rp : Report) : State :=
  let n := (s.flt.queue.filter (fun q => !q.lost)).length
  if n < 64 then { s with flt := { s.flt with queue := s.flt.queue ++ [rp] } }
  else { s with flt := { s.flt with queue := s.flt.queue ++ [{ rp with lost := true }] } }

/-- A report of class `cls` from a block outside the Rooms. -/
def State.raise (s : State) (code cls src : Nat) (wing : Nat) (tag : BitVec 16) (body : List (BitVec 64)) : State :=
  s.report { code := BitVec.ofNat 16 code, cls := BitVec.ofNat 2 cls, lroom := 0x7F#7, wing := BitVec.ofNat 2 wing,
             src := BitVec.ofNat 4 src, tag := tag, body := body, lost := false }

/-! ## Trace capture (R362, R363, R772 to R774) -/

/-- The trace record of R362. -/
def traceRec (s : State) (r : RoomId) (unit ev op : Nat) (tag : BitVec 16) (skip : Bool) (fcode detail : Nat) :
    BitVec 256 :=
  let g := s.wing (wingOf r)
  BitVec.ofNat 256 (pack [(0, 32, s.job.stick.toNat), (32, 32, g.periods - g.per0), (64, 32, g.acyc - g.ac0),
    (96, 7, r.val), (104, 4, unit), (108, 4, ev), (112, 16, tag.toNat), (128, 8, op), (136, 1, b2n skip),
    (144, 16, fcode), (160, 32, detail)])

/-- A pending effect among others, in ascending order of a key (R254). -/
def insertPend (k : Pend → Nat) (p : Pend) : List Pend → List Pend
  | [] => [p]
  | q :: t => if k p < k q then p :: q :: t else q :: insertPend k p t

/-- The pending effects in ascending order of a key, equal ones as they stand. -/
def sortPend (k : Pend → Nat) (l : List Pend) : List Pend := l.foldl (fun acc p => insertPend k p acc) []

/-- The place of a record among those of its gc: ascending EVENT and then UNIT, equal ones as they come (R773). -/
def Trace.place (x : Nat × Bool × BitVec 256) : List (Nat × Bool × BitVec 256) → List (Nat × Bool × BitVec 256)
  | [] => [x]
  | y :: l => if x.1 < y.1 then x :: y :: l else y :: Trace.place x l

/-- One record offered to the Room's buffer. [DESIGN CHOICE: log 33.] -/
def Trace.capture (t : Trace) (ev unit : Nat) (hasUnit : Bool) (tag : BitVec 16) (rcd : BitVec 256) : Trace :=
  let wanted := bit t.ctl (8 + ev) &&
    (!hasUnit || (decide (unit < 7) && bit t.ctl (16 + unit) && decide (field t.ctl 32 16 ≤ tag.toNat) &&
      decide (tag.toNat ≤ field t.ctl 48 16)))
  { t with cur := Trace.place (16 * ev + (if hasUnit then unit else 0), wanted, rcd) t.cur }

/-- A record of the gc in its place: the eighth captured is the last of its gc, and a fault arms the trigger (R773, R774).
[DESIGN CHOICE: log 33.] -/
def Trace.keep (x : Nat × Trace) (e : Nat × Bool × BitVec 256) : Nat × Trace :=
  let t := x.2
  if t.stopped then x
  else
    let y : Nat × Trace :=
      if !e.2.1 then x
      else if x.1 ≥ 8 then (x.1, { t with lost := satAdd t.lost 1 })
      else if t.recs.length ≥ 512 && bit t.ctl 1 then (x.1, { t with stopped := true, lost := satAdd t.lost 1 })
      else
        let full := decide (t.recs.length ≥ 512)
        let recs := (if full then t.recs.drop 1 else t.recs) ++ [e.2.2]
        let aft := t.after.map (· - 1)
        (x.1 + 1, { t with recs := recs, wrapped := t.wrapped || full, after := aft,
                           stopped := aft == some 0 || (bit t.ctl 1 && recs.length == 512) })
    if e.1 / 16 = 3 && bit t.ctl 2 && y.2.after.isNone then (y.1, { y.2 with after := some 64 }) else y

/-- At the end of a gc its records enter the buffer (R773). [DESIGN CHOICE: log 33.] -/
def Trace.flush (t : Trace) : Trace := { (t.cur.foldl Trace.keep (0, t)).2 with cur := [] }

/-- An event of a Room enters its trace. [DEDUCED: log 34.] -/
def State.traceEv (s : State) (r : RoomId) (ev unit : Nat) (hasUnit : Bool) (op : Nat) (tag : BitVec 16) (skip : Bool)
    (fcode detail : Nat) : State :=
  s.modRoom r fun rm =>
    if !(bit rm.trace.ctl 0) then rm
    else { rm with trace := rm.trace.capture ev unit hasUnit tag (traceRec s r unit ev op tag skip fcode detail) }

/-- A fault of class N raised by a Room. -/
def State.raiseRoom (s : State) (r : RoomId) (code : Nat) (tag : BitVec 16) (body : List (BitVec 64)) : State :=
  s.report { code := BitVec.ofNat 16 code, cls := 0#2, lroom := BitVec.ofNat 7 r.val,
             wing := BitVec.ofNat 2 (wingOf r).val, src := 0#4, tag := tag, body := body, lost := false }

/-- A fault that a Room raises with no command at hand: the report, and a trace record without a unit (R363, R774).
[DEDUCED: log 34.] [DEDUCED: log 34.] -/
def State.raiseBare (s : State) (r : RoomId) (code : Nat) (tag : BitVec 16) (body : List (BitVec 64)) : State :=
  (s.raiseRoom r code tag body).traceEv r 3 0 false 0 tag false code 0

/-- A fault of a Room command: the report and the trace record (R317, R363). -/
def State.cmdFault (s : State) (r : RoomId) (c : BitVec 128) (code : Nat) (body : List (BitVec 64)) (detail : Nat := 0) :
    State :=
  (s.raiseRoom r code (tagOf c) body).traceEv r 3 (unitOf c) true (opcodeOf c) (tagOf c) false code detail

/-! ## Smoke detector (R769, R771) -/

/-- In debug mode, and with its bit of CHECK_EN set, a check is reported to the Threshold. -/
def State.smokeRep (s : State) (room : Option RoomId) (check : Nat) (tag tag2 : BitVec 16) (detail : Nat) : State :=
  if !s.smoke.debug || !(bit s.smoke.checkEn (check - 1)) then s
  else if s.smoke.queue.length ≥ 64 then
    { s with smoke := { s.smoke with lost := satAdd s.smoke.lost 1, drop := true } }
  else
    let scyc := match room with
      | some r => (s.wing (wingOf r)).acyc - (s.wing (wingOf r)).ac0
      | none => 0
    let rcd := BitVec.ofNat 256 (pack [(0, 32, s.job.stick.toNat), (32, 32, scyc),
      (64, 7, match room with | some r => r.val | none => 0x7F), (72, 4, check), (80, 16, tag.toNat),
      (96, 16, tag2.toNat), (128, 64, detail)])
    { s with smoke := { s.smoke with queue := s.smoke.queue ++ [rcd] } }

/-! ## Status words -/

/-- ROOM_FMT_STATUS takes flags with the tag of the command that set them (R189). -/
def Room.setFmt (rm : Room) (fl : BitVec 8) (tag : BitVec 16) : Room :=
  if fl = 0#8 then rm
  else { rm with fmt := setField (rm.fmt ||| fl.zeroExtend 64) 16 16 tag.toNat }

/-- ROOM_PAN_STATUS takes a bit with LAST_TAG and LAST_LINE (R455). -/
def Pan.setStatus (p : Pan) (b : Nat) (tag : BitVec 16) (line : Nat) : Pan :=
  { p with status := setField (setField (p.status ||| (1#64 <<< b)) 16 16 tag.toNat) 32 12 line }

/-- Corrected errors are counted (R432, R455). -/
def Pan.addCorr (p : Pan) (n : Nat) (tag : BitVec 16) (line : Nat) : Pan :=
  if n = 0 then p
  else
    let p := p.setStatus 4 tag line
    { p with status := setField p.status 48 16 (min (field p.status 48 16 + n) 0xFFFF) }

/-- A source word (R748). -/
def srcWord (kind rank lroom : Nat) (tag : BitVec 16) (ctx : Nat) : BitVec 64 :=
  BitVec.ofNat 64 (pack [(0, 4, kind), (4, 12, rank), (16, 7, lroom), (24, 16, tag.toNat), (40, 2, ctx)])

/-- The source word of a source in this package: RANK is its own rank. -/
def State.srcOf (s : State) (kind lroom : Nat) (tag : BitVec 16) (ctx : Nat) : BitVec 64 :=
  srcWord kind s.ownRank.toNat lroom tag ctx

/-! ## The Pantry -/

/-- The bytes of a Pantry, and the number of its lines (R410, R411). -/
def panSize : Nat := 0xC0000
def panLines : Nat := 3072

/-- `n` entries of a sparse table from `k`, looked up among the entries of that range only. -/
def sgetRange {w : Nat} (m : SMap w) (k n : Nat) : List (BitVec w) :=
  let es := m.filter (fun e => decide (k ≤ e.1) && decide (e.1 < k + n))
  sgetList es k n

/-- A mask of the bytes [off, off + len) of a line. -/
def byteMask (off len : Nat) : LineMask := BitVec.ofNat 2048 ((2 ^ (8 * len) - 1) * 2 ^ (8 * off))

def fullMask : LineMask := BitVec.allOnes 2048

/-- A byte overlaid in the bits of a mask. -/
def overByte (old mask new : BitVec 8) : BitVec 8 := (old &&& ~~~mask) ||| (new &&& mask)

/-- Bytes of one line overlaid by a masked write. -/
def overlay (old : Bytes) (mask : LineMask) (new : Bytes) : Bytes :=
  (indexed old).map fun p => overByte p.2 (BitVec.ofNat 8 (field mask (8 * p.1) 8)) (new.getD p.1 0)

/-- The lines of `l` that pending Gallery and Corridor writes change by schedule cycle `cyc`. -/
def pendLine (rm : Room) (line cyc : Nat) : List (LineMask × Bytes × BitVec 32) :=
  rm.pend.filterMap fun p =>
    if p.due ≤ cyc then
      match p.eff with
      | .pan l m d po => if l = line then some (m, d, po) else none
      | .corridor l m d po => if l = line then some (m, d, po) else none
      | _ => none
    else none

/-- The bytes of a line as they stand at the start of schedule cycle `cyc`. -/
def Room.lineAt (rm : Room) (line cyc : Nat) : Bytes :=
  (pendLine rm line cyc).foldl (fun b w => overlay b w.1 w.2.1) (sgetRange rm.pan.mem (256 * line) 256)

/-- The `len` bytes from Pantry offset `off` at schedule cycle `cyc`, over at most a few lines. -/
def Room.bytesAt (rm : Room) (off len cyc : Nat) : Bytes :=
  let l0 := off / 256
  let nl := (off + len + 255) / 256 - l0
  slice (((List.range nl).map fun i => rm.lineAt (l0 + i) cyc).flatten) (off % 256) len

/-- Does a word of the line hold an uncorrectable error at schedule cycle `cyc` (R418, R433)? -/
def Room.lineBad (rm : Room) (line cyc : Nat) : Bool :=
  (sgetRange rm.pan.due (32 * line) 32).any (· == 1#1) || (pendLine rm line cyc).any (fun w => w.2.2 != 0#32)

/-- The tag of a line, a pending write to an EMPTY line counting as made (R425, R427). -/
def Room.tagAt (rm : Room) (line cyc : Nat) : Nat :=
  let t := (sget rm.pan.tags line).toNat
  if t = 1 && !(pendLine rm line cyc).isEmpty then 3 else t

/-- A line takes a tag; a fetched line that leaves FULL unused is counted (before R459). -/
def Room.setTag (rm : Room) (line t : Nat) : Room :=
  let unused := decide (sget rm.pan.fetched line ≠ 0#64) && (sget rm.pan.tags line).toNat == 3 && t != 3
  { rm with
    pan := { rm.pan with tags := sput rm.pan.tags line (BitVec.ofNat 2 t)
                         fetched := if t = 3 then rm.pan.fetched else sput rm.pan.fetched line 0#64 }
    dw := if unused then { rm.dw with linesUnused := satAdd rm.dw.linesUnused 1 } else rm.dw }

/-- A masked write of one line: bytes, check bits and poison (R415, R418, R433). -/
def Pan.writeLine (p : Pan) (line : Nat) (mask : LineMask) (data : Bytes) (poison : BitVec 32) : Pan :=
  let put (m : SMap 8) (i : Nat) : SMap 8 :=
    let b := BitVec.ofNat 8 (field mask (8 * i) 8)
    let k := 256 * line + i
    if b = 0#8 then m else sput m k (overByte (sget m k) b (data.getD i 0))
  let mem := (List.range 256).foldl put p.mem
  let wstep (q : Pan) (i : Nat) : Pan :=
    let bytes := field mask (64 * i) 64
    let k := 32 * line + i
    if bit poison i then { q with due := sput q.due k 1#1, sbe := sput q.sbe k 0#1 }
    else if bytes = 2 ^ 64 - 1 then { q with due := sput q.due k 0#1, sbe := sput q.sbe k 0#1 }
    else if bytes ≠ 0 then { q with sbe := sput q.sbe k 0#1 }
    else q
  (List.range 32).foldl wstep { p with mem := mem }

/-- The Pantry bank of a line (R411). -/
def bankOf (line : Nat) : Nat := line / 256

/-- A 12-bit mask with the bank's bit. -/
def inMask (m : BitVec 12) (bank : Nat) : Bool := bit m bank

/-- Is a bank gated or still waking in schedule cycle `cyc` (R115, R430)? -/
def Room.bankDown (rm : Room) (bank cyc : Nat) : Bool :=
  inMask rm.pan.gated bank || (inMask rm.pan.waking bank && decide (cyc < rm.pan.wakeAt.toList.getD bank 0))

/-- Why a Gallery-port access of a line in schedule cycle `cyc` is refused (R424, R431). [DEDUCED: log 81.] -/
def Room.galFail (rm : Room) (line cyc : Nat) : Option Nat :=
  let b := bankOf line
  if rm.bankDown b cyc then some fcPanGated
  else if rm.tagAt line cyc = 0 && inMask rm.pan.own b then some fcPanOwner
  else none

/-- The report of a failed Gallery access, with the bit of ROOM_PAN_STATUS (R417, R455, R462). [DEDUCED: log 81.] -/
def State.galReport (s : State) (r : RoomId) (c : BitVec 128) (line code : Nat) (winner : BitVec 16) : State :=
  let tag := tagOf c
  let ln := BitVec.ofNat 64 line
  let src := s.srcOf 0 r.val tag 0
  let p := if code = fcPanOwner then 0 else if code = fcPanConflict then 1 else 2
  let body := if code = fcPanOwner then [ln, src]
    else if code = fcPanConflict then [ln, winner.zeroExtend 64] else [BitVec.ofNat 64 (bankOf line), src]
  let s := s.modRoom r fun rm => { rm with pan := rm.pan.setStatus p tag line }
  let s := if code = fcPanConflict then s.smokeRep (some r) 3 tag winner line
    else if code = fcPanOwner then s.smokeRep (some r) 4 tag 0 line else s
  s.cmdFault r c code body

/-- The pending effect of a bank use: the read still to be made or the write still to be committed. -/
def BankUse.owns (u : BankUse) (p : Pend) : Bool :=
  decide (p.word = u.word) && (match p.eff with
    | .grab _ l _ => u.kind == 0 && l == u.line && p.due == u.cyc
    | .pan l _ _ _ => l == u.line && ((u.kind == 1 && p.due == u.cyc + 1) || (u.kind == 3 && p.due == u.cyc + 2))
    | .corridor l _ _ _ => l == u.line && ((u.kind == 2 && p.due == u.cyc + 1) || (u.kind == 4 && p.due == u.cyc + 2))
    | _ => false)

/-- An access that loses its bank: a read comes poisoned, a write is discarded, and a partial write that loses the gc before its
write gc leaves that one free (R415 to R417). -/
def State.loseUse (s : State) (r : RoomId) (u : BankUse) (winner : BitVec 16) : State :=
  let s := s.modRoom r fun rm =>
    { rm with
      pend := if u.kind = 0 then updFirst u.owns (fun p => match p.eff with
            | .grab i l _ => { p with eff := .grab i l true }
            | _ => p) rm.pend
          else delFirst u.owns rm.pend
      pan := { rm.pan with uses := rm.pan.uses.filter fun v => decide (v ≠ u) &&
        !(decide (3 ≤ u.kind) && decide (v.word = u.word) && v.line == u.line && v.cyc == u.cyc + 1 &&
          v.kind == u.kind - 2) } }
  s.galReport r u.word u.line fcPanConflict winner

/-- Does the access `a` beat `b` (R416)? Between equals the one that claimed its bank first proceeds. -/
def BankUse.beats (a b : BankUse) : Bool :=
  let cor (k : Nat) : Bool := k == 2 || k == 4
  (cor b.kind && !cor a.kind) || (cor a.kind == cor b.kind && decide (a.start < b.start))

/-- The accesses scheduled for the present gc: of those on one bank one proceeds (R413, R416). [DEDUCED: log 81.] -/
def State.arbitrate (s : State) (r : RoomId) : State :=
  let us := ((s.room r).pan.uses.filter fun u => u.cyc == s.cyc r).reverse
  us.foldl (fun s u =>
    let same := us.filter fun v => v.bank == u.bank
    match same.find? fun v => same.all fun x => !(x.beats v) with
    | some won => if won = u then s else s.loseUse r u (tagOf won.word)
    | none => s) s

/-- An access takes its bank in its schedule cycle: for a later gc it is put down for arbitration, and in the present one it
proceeds or not at once (R413, R415, R416). [DEDUCED: log 81.] -/
def State.claim (s : State) (r : RoomId) (c : BitVec 128) (start line cyc kind : Nat) : Bool × State :=
  let use : BankUse := { cyc := cyc, bank := bankOf line, line := line, start := start, word := c, kind := kind }
  let put (s : State) : State := s.modRoom r fun rm => { rm with pan := { rm.pan with uses := use :: rm.pan.uses } }
  if s.cyc r < cyc then (true, put s)
  else match (s.room r).pan.uses.find? (fun u => u.cyc == cyc && u.bank == bankOf line) with
    | none => (true, put s)
    | some u =>
      if use.beats u then (true, put (s.loseUse r u (tagOf c)))
      else (false, s.galReport r c line fcPanConflict (tagOf u.word))

/-- The first hand-off line that a read or a write does not find ready (R426): the freeze condition of R353 item 1. After a
STOP nothing is held (R806). -/
def Room.notReady (rm : Room) (tag : BitVec 16) (write : Bool) (acc : List (Nat × Nat)) : Option Frz :=
  if rm.stopped then none else (acc.find? fun a =>
    let t := rm.tagAt a.2 a.1
    if write then t == 2 || t == 3 else t == 1 || t == 2).map fun a => Frz.line tag a.2 write

/-- A tag-checked read that finds a line FULL allows the predicates of the watches that deliver to it (R537). -/
def Room.allowGuards (rm : Room) (line : Nat) : Room :=
  if (sget rm.pan.tags line).toNat = 3 then
    { rm with latch := { rm.latch with guards := rm.latch.guards.filter (fun g => g.2.1 != line) } }
  else rm

/-- A tag-checked read of a FULL line that a fetch wrote is its use; the first is a lead read (before R459). -/
def Room.countUse (rm : Room) (line period : Nat) : Room :=
  let f := sget rm.pan.fetched line
  if f = 0#64 || (sget rm.pan.tags line).toNat ≠ 3 then rm
  else
    let lead := period + 1 - f.toNat
    { rm with
      pan := { rm.pan with fetched := sput rm.pan.fetched line 0#64 }
      dw := { rm.dw with
        linesUsed := satAdd rm.dw.linesUsed 1
        leadSum := satAdd rm.dw.leadSum lead
        leadReads := satAdd rm.dw.leadReads 1
        leadMin := if lead < rm.dw.leadMin.toNat then BitVec.ofNat 16 lead else rm.dw.leadMin } }

/-- Does debug mode see a read of a line whose Gallery or Corridor write is still due (R769, 0x1)? -/
def State.smokeRead (s : State) (r : RoomId) (c : BitVec 128) (line cyc : Nat) : State :=
  match (s.room r).pend.find? (fun p => decide (cyc < p.due) && (match p.eff with
    | .pan l _ _ _ => l == line
    | .corridor l _ _ _ => l == line
    | _ => false)) with
  | some p => s.smokeRep (some r) 1 (tagOf c) (tagOf p.word) line
  | none => s

/-- A pending effect joins the Room's list. -/
def State.addPend (s : State) (r : RoomId) (due : Nat) (c : BitVec 128) (eff : Eff) : State :=
  s.modRoom r fun rm => { rm with pend := rm.pend ++ [{ due := due, start := s.cyc r, word := c, eff := eff }] }

/-- A line read joins its command's. -/
def Room.addGot (rm : Room) (id : Nat) (g : Got) : Room :=
  { rm with runs := rm.runs.map fun u => if u.id = id then { u with got := u.got ++ [g] } else u }

/-- The Gallery-port read of a line in its schedule cycle (R413 to R417, R424, R431 to R433): the bytes as they stand,
errors counted and faults raised; a read that fails, or that a STOP releases (R806), delivers a poisoned line. [DESIGN CHOICE: log 69.] -/
def State.grab (s : State) (r : RoomId) (c : BitVec 128) (id line : Nat) (lost : Bool) : State :=
  let rm := s.room r
  let cyc := s.cyc r
  let got (bad : Bool) : Got := { cyc := cyc, line := line, bytes := rm.lineAt line cyc, bad := bad }
  let released := rm.stopped && (rm.tagAt line cyc == 1 || rm.tagAt line cyc == 2)
  if lost || released then s.modRoom r (·.addGot id (got true))
  else match rm.galFail line cyc with
  | some f => (s.galReport r c line f 0).modRoom r (·.addGot id (got true))
  | none =>
    let bad := rm.lineBad line cyc
    let sbes := ((sgetRange rm.pan.sbe (32 * line) 32).filter (· == 1#1)).length
    let s := (s.smokeRead r c line cyc).modRoom r fun rm =>
      let rm := (rm.allowGuards line).countUse line (s.wing (wingOf r)).periods
      { rm.addGot id (got bad) with pan := rm.pan.addCorr sbes (tagOf c) line }
    if bad then
      (s.modRoom r fun rm => { rm with pan := rm.pan.setStatus 5 (tagOf c) line }).cmdFault r c fcPanDue
        [BitVec.ofNat 64 line]
    else s

/-- The reads of a command that starts (schedule cycle, line): each takes its bank or comes poisoned; those of the start
gc are made at once. [DESIGN CHOICE: log 69.] -/
def State.reads (s : State) (r : RoomId) (c : BitVec 128) (id : Nat) : List (Nat × Nat) → State
  | [] => s
  | a :: t =>
    let x := s.claim r c (s.cyc r) a.2 a.1 0
    let s := x.2
    let s := if a.1 = s.cyc r then s.grab r c id a.2 (!x.1) else s.addPend r a.1 c (.grab id a.2 (!x.1))
    s.reads r c id t

/-- A command that reads the Pantry joins the Room's running commands; its number. -/
def State.addRun (s : State) (r : RoomId) (u : Run) : Nat × State :=
  let id := (s.room r).nextRun
  (id, s.modRoom r fun rm => { rm with runs := rm.runs ++ [{ u with id := id }], nextRun := id + 1 })

/-- A running command by its number. -/
def Room.run (rm : Room) (id : Nat) : Option Run := rm.runs.find? (fun u => u.id == id)

/-- A running command ends: its reads and effects still to come are dropped (R240). -/
def Room.endRun (rm : Room) (id : Nat) : Room :=
  { rm with
    runs := rm.runs.filter (fun u => u.id != id)
    pend := rm.pend.filter fun p => match p.eff with
      | .grab i _ _ => i != id
      | .mmRow i _ => i != id
      | _ => true }

/-- The bytes [off, off + len) as a running command read them: lines read in schedule cycle `cyc`. -/
def Run.bytes (u : Run) (cyc off len : Nat) : Bytes :=
  (List.range len).map fun i =>
    let l := (off + i) / 256
    match u.got.find? (fun g => g.line == l && g.cyc == cyc) with
    | some g => g.bytes.getD ((off + i) % 256) 0
    | none => 0

/-- Did a line that a running command read in schedule cycle `cyc` come poisoned? -/
def Run.bad (u : Run) (cyc line : Nat) : Bool := u.got.any (fun g => g.line == line && g.cyc == cyc && g.bad)

/-- Does a masked write change some but not all bits of a 64-bit word (R415)? -/
def partialWord (mask : LineMask) : Bool :=
  (List.range 32).any fun i => let b := field mask (64 * i) 64; b != 0 && b != 2 ^ 64 - 1

/-- A Gallery-port write of one line in schedule cycle `cyc` by a command that started in `start`: it takes its bank,
with the gc before it for a partial word (R415), and shows from the next cycle; a write that loses is discarded. -/
def State.galWrite (s : State) (r : RoomId) (c : BitVec 128) (start line cyc : Nat) (mask : LineMask) (data : Bytes)
    (poison : BitVec 32) : State :=
  let x := s.claim r c start line cyc 1
  let y := if x.1 && partialWord mask then x.2.claim r c start line (cyc - 1) 3 else x
  if y.1 then y.2.addPend r (cyc + 1) c (.pan line mask data poison)
  else y.2.modRoom r fun rm => { rm with pan := { rm.pan with
    uses := rm.pan.uses.filter fun u => !(decide (u.word = c) && u.line == line && u.cyc == cyc && u.kind == 1) } }

/-- The commit of a Gallery or Corridor write: bytes, and an EMPTY line becomes FULL (R425). -/
def Room.commitLine (rm : Room) (cyc line : Nat) (mask : LineMask) (data : Bytes) (poison : BitVec 32) : Room :=
  let b := bankOf line
  if rm.bankDown b cyc then rm
  else
    let t := (sget rm.pan.tags line).toNat
    let rm := { rm with pan := rm.pan.writeLine line mask data poison }
    if t = 1 then rm.setTag line 3 else rm

/-! ## The Hatch -/

/-- The state of a Hatch slot: 0 FREE, 1 MATRIX, 2 RELEASING, 3 VECTOR (R233, R299). -/
def Hatch.slot (h : Hatch) (n : Nat) : Nat := field h.st (2 * n) 2

/-- The state of a slot in schedule cycle `cyc`: a RELEASING slot whose time has come counts as VECTOR (R233). -/
def Hatch.slotAt (h : Hatch) (n cyc : Nat) : Nat :=
  if h.slot n = 2 && h.rel.any (fun p => p.1 == n && decide (p.2 ≤ cyc)) then 3 else h.slot n

def Hatch.setSlot (h : Hatch) (n v : Nat) : Hatch := { h with st := setField h.st (2 * n) 2 v }

/-! ## Units -/

/-- The queue of a unit (R312). -/
def Room.queue (rm : Room) (unit : Nat) : List QCmd := rm.queues.toList.getD unit []

def Room.setQueue (rm : Room) (unit : Nat) (q : List QCmd) : Room :=
  if h : unit < 7 then { rm with queues := rm.queues.set unit q } else rm

/-- A command may start when it is at the head of its unit's queue in an advancing gc of a Room that is on (R210, R251,
R319, R354). [DESIGN CHOICE: log 69.] -/
def State.atHead (s : State) (r : RoomId) (unit : Nat) (c : QCmd) : Bool :=
  (s.room r).on && s.advancing (wingOf r) && decide (unitOf c.word = unit) && ((s.room r).queue unit).head? == some c

/-- A command leaves its queue in its start gc (R318); its DUR counts toward the completion of the tick (R60), and its
START and COMPLETE are traced (R363). [DESIGN CHOICE: log 69.] -/
def State.begin (s : State) (r : RoomId) (unit : Nat) (c : QCmd) (dur lane : Nat) : State :=
  let at0 := s.cyc r
  let s := s.modRoom r fun rm =>
    let rm := rm.setQueue unit ((rm.queue unit).drop 1)
    { rm with seq := { rm.seq with
        doneTag := if rm.seq.doneAt < at0 + dur then tagOf c.word else rm.seq.doneTag
        doneAt := max rm.seq.doneAt (at0 + dur) } }
  let s := s.traceEv r 1 unit true (opcodeOf c.word) (tagOf c.word) (!c.pred) 0 lane
  if bit (s.room r).trace.ctl 0 then
    s.addPend r (at0 + dur) c.word (.complete unit (opcodeOf c.word) (!c.pred))
  else s

/-- A Room takes a freeze condition (R353); the freeze begins with the first of its Wing. -/
def State.freeze (s : State) (r : RoomId) (f : Frz) : State :=
  let w := wingOf r
  let cond := match f with
    | .line .. => 1
    | .queue .. => 2
    | .depart .. => 3
    | .credit .. => 4
  let tag := match f with
    | .line t _ _ => t
    | .queue t _ => t
    | .depart t => t
    | .credit t _ => t
  if (s.room r).frz.contains f then s
  else
    let first := (s.room r).frz.isEmpty
    let reads := match f with
      | .line _ _ false => 1
      | _ => 0
    let s := s.modRoom r fun rm => { rm with
      frz := rm.frz ++ [f]
      frzIn := true
      probeAt := if cond = 4 then s.rc else rm.probeAt
      seq := { rm.seq with freezeGc := if first then satAdd rm.seq.freezeGc 1 else rm.seq.freezeGc }
      dw := { rm.dw with lags := rm.dw.lags + reads } }
    let rd := match f with
      | .line t _ false => some (r, t)
      | _ => none
    let s := s.modWing w fun g =>
      if g.frzOn then
        { g with frzRead := match g.frzRead, rd with
            | none, x => x
            | some a, some b => if g.frzLen = 0 && decide (b.1 < a.1) then some b else some a
            | some a, none => some a }
      else { g with frzOn := true, frzLen := 0, frzSince := s.now, frzBits := none, frzRead := rd, frzRep := false }
    s.traceEv r 4 0 false 0 tag false 0 cond

end Sys2Proof.Machine
end

