-- ==== Sys2Proof/Machine/Operands.lean ====
section
/-! DEFINITION. Operand forms: scalar counters, descriptors and their checks, the addresses of tensor elements and scale
bytes, and the groups of a tensor (R138, R266 to R268, R316, R331 to R340, R359 to R361). -/

namespace Sys2Proof.Machine

/-- A scalar counter as a unit reads it in its start gc (R316, R324). -/
def Room.scOf (rm : Room) (n : Nat) : BitVec 64 := rm.seq.scVis.toList.getD n 0

/-- A tensor descriptor's fields (R333). -/
structure Tensor where
  smode  : Nat
  saxis  : Bool
  rte    : Bool
  fmt    : Nat
  base   : Nat
  sbase  : Nat
  pitch  : Nat
  xext   : Nat
  yext   : Nat
  spitch : Nat
  tid    : BitVec 32
  lbase  : Nat
  lpitch : Nat
  rdesc  : Nat
  deriving DecidableEq, Repr, Inhabited

def tensorOf (d : BitVec 256) : Tensor :=
  { smode := field d 4 2, saxis := bit d 6, rte := bit d 7, fmt := field d 8 8, base := field d 16 20,
    sbase := field d 36 20, pitch := field d 56 16, xext := field d 72 16, yext := field d 88 16,
    spitch := field d 104 16, tid := d.extractLsb' 120 32, lbase := field d 152 48, lpitch := field d 200 32,
    rdesc := field d 232 11 }

/-- A route descriptor's fields (R339). -/
structure Route where
  tgt   : Nat
  flag  : Bool
  droom : Nat
  drank : BitVec 12
  mch   : Nat
  caddr : Nat
  deriving DecidableEq, Repr, Inhabited

def routeOf (d : BitVec 256) : Route :=
  { tgt := field d 4 3, flag := bit d 7, droom := field d 8 7, drank := d.extractLsb' 16 12, mch := field d 32 8,
    caddr := field d 64 48 }

/-- A stream descriptor's fields (R340). -/
structure Stream where
  dir     : Bool
  depth   : Nat
  haddr   : Nat
  pbase   : Nat
  rlen    : Nat
  nrows   : Nat
  hstride : Nat
  pstride : Nat
  pring   : Nat
  npage   : Nat
  deriving DecidableEq, Repr, Inhabited

def streamOf (d : BitVec 256) : Stream :=
  { dir := bit d 4, depth := field d 8 6, haddr := field d 16 48, pbase := field d 64 20, rlen := field d 96 16,
    nrows := field d 112 16, hstride := field d 128 32, pstride := field d 160 20, pring := field d 180 12,
    npage := field d 192 8 }

/-- The bytes of `n` elements of a row, from its first element (R135 to R138). -/
def rowBytes (bits n : Nat) : Nat := if bits = 6 then 3 * cdiv n 4 else cdiv (n * bits) 8

/-- The byte range (offset from the row's start, length) of elements [x, x + n) (R135 to R137). -/
def elemBytes (bits x n : Nat) : Nat × Nat :=
  if n = 0 then (0, 0)
  else if bits = 6 then (3 * (x / 4), 3 * cdiv (x + n) 4 - 3 * (x / 4))
  else (x * bits / 8, cdiv ((x + n) * bits) 8 - x * bits / 8)

/-- Does a field of a tensor descriptor break R333 (DESC_FIELD of R359)? -/
def tensorBad (tabs : Tables) (d : BitVec 256) : Bool :=
  let t := tensorOf d
  let short := match fmtOf tabs.ptab t.fmt with
    | some f => decide (2 ≤ t.yext) && decide (t.pitch < rowBytes f.elem.bits t.xext)
    | none => false
  field d 243 13 != 0 || decide (t.base ≥ panSize) || t.xext == 0 || t.yext == 0 || short

/-- Does a field of a route descriptor break R339 or R637? -/
def routeBad (d : BitVec 256) : Bool :=
  let r := routeOf d
  bit d 15 || field d 28 4 != 0 || field d 40 24 != 0 || field d 112 144 != 0 || decide (r.droom > 95) ||
    !(decide (r.mch < 8) || (decide (0x80 ≤ r.mch) && decide (r.mch < 0x90))) ||
    (r.tgt == 3 && (r.caddr % 256 != 0 || decide (r.caddr < 0x030000000000) || decide (r.caddr > 0x06FFFFFFFF00)))

/-- Does a field of a stream descriptor break R340? -/
def streamBad (d : BitVec 256) : Bool :=
  let t := streamOf d
  field d 5 3 != 0 || field d 14 2 != 0 || field d 84 12 != 0 || field d 200 56 != 0 || t.depth == 0 ||
    decide (t.depth > 48) || t.haddr % 256 != 0 || t.pbase % 256 != 0 || decide (t.pbase ≥ panSize) ||
    t.rlen % 256 != 0 || decide (t.rlen < 256) || decide (t.rlen > 65280) || t.nrows == 0 || t.hstride % 256 != 0 ||
    t.pstride % 256 != 0 || decide (t.pring > 3072) || t.npage == 0

/-- A descriptor entry as a command that starts now reads it (R316, R330). -/
def Room.descOf (rm : Room) (idx : Nat) : BitVec 256 := sget rm.prog.desc idx

/-- The lowest-numbered word of an entry that holds a double-bit error (R359, R752). -/
def Room.descDueWord (rm : Room) (idx : Nat) : Option Nat :=
  [0, 1, 2, 3].find? fun i => sget rm.prog.descDue (4 * idx + i) == 1#1

/-- DESC_ECC_DUE of an entry, the one fault a skipped command may raise (R315). -/
def Room.descEcc (rm : Room) (idx : Nat) : Option (Nat × List (BitVec 64)) :=
  (rm.descDueWord idx).map fun w => (fcDescDue, [BitVec.ofNat 64 idx, BitVec.ofNat 64 w])

/-- The descriptor faults of an entry in the order of R359: DESC_ECC_DUE, DESC_KIND, DESC_FIELD. -/
def Room.descErr (rm : Room) (tabs : Tables) (idx kind : Nat) (c : BitVec 128) : Option (Nat × List (BitVec 64)) :=
  let d := rm.descOf idx
  let bad := if kind = 1 then tensorBad tabs d else if kind = 2 then streamBad d else routeBad d
  match rm.descEcc idx with
  | some e => some e
  | none =>
    if field d 0 4 ≠ kind then some (fcDescKind, [BitVec.ofNat 64 idx, BitVec.ofNat 64 (field d 0 4)])
    else if bad then some (fcDescField, BitVec.ofNat 64 idx :: cmdWords c)
    else none

/-- A descriptor fault: the report, the trace record and SEQ_FAULT (R359, R370). -/
def State.descFault (s : State) (r : RoomId) (c : BitVec 128) (e : Nat × List (BitVec 64)) : State :=
  (s.modRoom r fun rm => { rm with seq := { rm.seq with seqFault := satAdd rm.seq.seqFault 1 } }).cmdFault r c e.1 e.2

/-- The fault of a skipped command: DESC_ECC_DUE of the entries it names, or none (R315). -/
def State.skipEcc (s : State) (r : RoomId) (c : BitVec 128) (idxs : List Nat) : State :=
  match idxs.findSome? (s.room r).descEcc with
  | some e => s.descFault r c e
  | none => s

/-- The first of several checks that fails. -/
def firstErr (l : List (Option (Nat × List (BitVec 64)))) : Option (Nat × List (BitVec 64)) := l.findSome? id

/-- DESC_RANGE of an entry when one of the byte ranges (offset, length) leaves the Pantry (R337). -/
def rangeErr (idx : Nat) (rs : List (Nat × Nat)) : Option (Nat × List (BitVec 64)) :=
  (rs.find? fun p => decide (0 < p.2) && decide (p.1 + p.2 > panSize)).map fun p =>
    (fcDescRange, [BitVec.ofNat 64 idx, BitVec.ofNat 64 (if p.1 ≥ panSize then p.1 else panSize)])

/-- FORMAT_UNDEFINED of a descriptor (R129): a reserved ID, an empty slot, FP32 as a matrix operand, or a scale mode the
format does not permit. -/
def fmtErr (tabs : Tables) (id smode rnd : Nat) (mx : Bool) : Option (Nat × List (BitVec 64)) :=
  let body := [BitVec.ofNat 64 id, BitVec.ofNat 64 smode, BitVec.ofNat 64 rnd]
  match fmtOf tabs.ptab id with
  | none => some (fcFormat, body)
  | some f => if (mx && f.cls = .none) || !bit f.modes smode then some (fcFormat, body) else none

/-- D of R212 for a format ID: 9 gc for a pattern table, else 8 gc; 8 gc where it cannot be resolved (R216, R295). -/
def decLat (tabs : Tables) (id : Nat) : Nat :=
  if decide (0x40 ≤ id) && decide (id < 0x80) && (fmtOf tabs.ptab id).isSome then 9 else 8

/-- The Pantry lines of a byte range. -/
def linesOf (off len : Nat) : List Nat :=
  if len = 0 then [] else (List.range ((off + len - 1) / 256 - off / 256 + 1)).map (· + off / 256)

/-- The offset of the scale byte of element x of row y (R336). -/
def scaleOff (t : Tensor) (x y : Nat) : Nat :=
  let l := scaleLen t.smode
  if t.saxis then t.sbase + y / l * t.spitch + x else t.sbase + y * t.spitch + x / l

/-- The groups of a row and of a tensor (R266). -/
def rowGroups (t : Tensor) : Nat := cdiv t.xext 256
def groupCount (t : Tensor) : Nat := rowGroups t * t.yext

/-- The row, first element and element count of group `g` (R266, R267). -/
def groupOf (t : Tensor) (g : Nat) : Nat × Nat × Nat :=
  let gr := max (rowGroups t) 1
  let x0 := 256 * (g % gr)
  (g / gr, x0, min 256 (t.xext - x0))

/-- The element bytes of a group: Pantry offset and length. -/
def groupBytes (bits : Nat) (t : Tensor) (g : Nat) : Nat × Nat :=
  let p := groupOf t g
  let b := elemBytes bits p.2.1 p.2.2
  (t.base + p.1 * t.pitch + b.1, b.2)

/-- The scale bytes of a group as Pantry offsets, in ascending order. -/
def groupScales (t : Tensor) (g : Nat) : List Nat :=
  if t.smode = 0 then []
  else
    let p := groupOf t g
    if t.saxis then (List.range p.2.2).map fun i => scaleOff t (p.2.1 + i) p.1
    else (List.range (cdiv p.2.2 (scaleLen t.smode))).map fun b => scaleOff t (p.2.1 + b * scaleLen t.smode) p.1

/-- The lines of a group in the order in which they are touched: element lines, then the other scale lines (R846). -/
def groupLines (bits : Nat) (t : Tensor) (g : Nat) : List Nat :=
  let b := groupBytes bits t g
  let el := linesOf b.1 b.2
  el ++ ((groupScales t g).map (· / 256)).eraseDups.filter (fun l => !el.contains l)

/-- The byte ranges of a group for R337. -/
def groupRanges (bits : Nat) (t : Tensor) (g : Nat) : List (Nat × Nat) :=
  groupBytes bits t g :: (groupScales t g).map fun o => (o, 1)

/-- The logical linear index of element x of row y (R335). -/
def logicalIdx (t : Tensor) (x y : Nat) : Nat := (t.lbase + y * t.lpitch + x) % 2 ^ 48

/-- Is a 64-bit word of a pattern table bad? The word of entry `code` of slot `slot` (R147). -/
def ptabWord (t : PTable) (code : Nat) : Nat := if t.kind.toNat = 2 then (16 + 2 * code) / 8 else (16 + code) / 8

/-- The words of a slot's table that decoding `codes` reads. -/
def ptabWords (t : PTable) (codes : List Nat) : List Nat := (codes.map (ptabWord t)).eraseDups

/-- Decoding reads table memory: PTAB_CORR for a corrected word, PTAB_ECC_DUE for a double-bit error, and whether one was
found (R147, R189, R242). -/
def State.readPtab (s : State) (r : RoomId) (c : BitVec 128) (fmtId : Nat) (el : Elem) (codes : List Nat) :
    Bool × State :=
  match el with
  | .tab t =>
    let slot := fmtId - 0x40
    let ws := ptabWords t codes
    let sbe := ws.any fun w => sget s.tabs.ptabSbe (slot * 128 + w) == 1#1
    let s := if sbe then s.modRoom r (·.setFmt flPtabCorr (tagOf c)) else s
    match ws.find? (fun w => sget s.tabs.ptabDue (slot * 128 + w) == 1#1) with
    | some w => (true, s.cmdFault r c fcPtabDue [BitVec.ofNat 64 slot, BitVec.ofNat 64 w])
    | none => (false, s)
  | _ => (false, s)

end Sys2Proof.Machine
end

