-- ==== Sys2Proof/Machine/Latches.lean ====
section
/-! DEFINITION. Latch words, barriers and watches (chapter 11). -/

namespace Sys2Proof.Machine

/-! ## Latch words (R517 to R525) -/

def latGen (w : BitVec 64) : Nat := field w 0 8
def latMode (w : BitVec 64) : Bool := bit w 8
def latExpect (w : BitVec 64) : Nat := field w 16 16
def latArrived (w : BitVec 64) : Nat := field w 32 16
def latNext (w : BitVec 64) : Nat := field w 48 16

def Latch.word (l : Latch) (n : Nat) : BitVec 64 := l.words.toList.getD n 0

def Latch.setWord (l : Latch) (n : Nat) (w : BitVec 64) : Latch :=
  if h : n < 48 then { l with words := l.words.set n w } else l

/-- The distance of generations (R519, R530). -/
def genDist (g gen : Nat) : Int := (((g : Int) - (gen : Int) + 128) % 256) - 128

/-- The outcome of an arrival (R520, R521): the word, or the fault it raises. -/
def latchAdd (w : BitVec 64) (g : Nat) (inc : Int) : BitVec 64 ⊕ Nat :=
  let d := genDist g (latGen w)
  let lo := if d = 0 then 32 else 48
  if d < 0 then .inr fcLatStale
  else if d ≥ 2 then .inr fcLatOverflow
  else
    let v := (field w lo 16 : Int) + inc
    if v < 0 then .inr fcLatUnderflow
    else if v > (latExpect w : Int) then .inr fcLatOverflow
    else .inl (setField w lo 16 v.toNat)

/-- A bit of ROOM_LATCH_STATUS with LAST_LATCH and LAST_TAG (R575). -/
def Latch.setStatus (l : Latch) (b : Nat) (latch : Option Nat) (tag : BitVec 16) : Latch :=
  let st := setField (l.status ||| (1#64 <<< b)) 32 16 tag.toNat
  { l with status := match latch with
      | some n => setField st 16 6 n
      | none => st }

/-- A latch fault (R571): status, report, and the trace record where a command raised it. -/
def State.latchFault (s : State) (r : RoomId) (code latch : Nat) (c : Option (BitVec 128)) (tag : BitVec 16)
    (body : List (BitVec 64)) : State :=
  let b := if code = fcLatOverflow then 0 else if code = fcLatUnderflow then 1 else if code = fcLatStale then 2
    else if code = fcLatDiscard then 3 else 4
  let s := s.modRoom r fun rm => { rm with latch := rm.latch.setStatus b (some latch) tag }
  match c with
  | some w => s.cmdFault r w code body
  | none => s.raiseBare r code tag body

/-- A barrier whose ARRIVED equals EXPECT releases, at most once per gc (R525). -/
def Latch.release (l : Latch) (n : Nat) : Latch :=
  let w := l.word n
  if latMode w && latArrived w == latExpect w && !(bit l.relNow n) then
    let w' := BitVec.ofNat 64 (pack [(0, 8, latGen w + 1), (8, 1, 1), (16, 16, latExpect w), (32, 16, latNext w)])
    { l.setWord n w' with
      relNow := l.relNow ||| (1#48 <<< n)
      releases := if h : n < 48 then l.releases.set n (satAdd l.releases[n] 1) else l.releases }
  else l

/-- An arrival to a latch word (R520 to R525): `bits` are its retried and refresh-held bits (R532), `src` its source. -/
def State.latchArrive (s : State) (r : RoomId) (latch : Nat) (gen : BitVec 8) (inc : BitVec 16) (bits : BitVec 2)
    (src : BitVec 64) (c : Option (BitVec 128)) : State :=
  let l := (s.room r).latch
  match latchAdd (l.word latch) gen.toNat inc.toInt with
  | .inr code =>
    s.latchFault r code latch c (src.extractLsb' 24 16)
      [BitVec.ofNat 64 latch, gen.zeroExtend 64, inc.zeroExtend 64, src]
  | .inl w =>
    s.modRoom r fun rm =>
      let l := rm.latch.setWord latch w
      let l := { l with updBits := if h : latch < 48 then l.updBits.set latch (l.updBits[latch] ||| bits) else l.updBits }
      { rm with latch := l.release latch }

/-- A new period of the Wing clock (R525, R532): the arrival bits of the last one are forgotten, and a barrier that is
complete again releases again. -/
def Latch.newPeriod (l : Latch) : Latch :=
  let l := { l with relNow := 0, updBits := Vector.replicate 48 0 }
  (List.range 48).foldl (fun l n => l.release n) l

/-! ## Watches (R529 to R536) -/

/-- Does a watch's condition hold on a word (R530)? -/
def Watch.holds (t : Watch) (w : BitVec 64) : Bool :=
  let p := genDist (latGen w) t.gen.toNat
  decide (1 ≤ p) || (p == 0 && (if t.atleast then decide (latArrived w ≥ t.val.toNat)
    else !(latMode w) && latArrived w == latExpect w))

/-- A watch unit starts (R529, R534). -/
def Room.startWatch (rm : Room) (c : BitVec 128) (atleast : Bool) (period : Nat) : Room :=
  let wid := field c 56 3
  let wline := field c 80 12
  let wlen := bit c 49
  let pd := field c 52 3
  let t : Watch :=
    { latch := field c 32 6, gen := c.extractLsb' 40 8, atleast := atleast, val := c.extractLsb' 64 16, pd := pd,
      wlen := wlen, wline := wline, start := period, timeout := field c 96 24, tag := tagOf c }
  let rm := if wlen then rm.setTag wline 1 else rm
  { rm with latch := { rm.latch with
      watches := if h : wid < 8 then rm.latch.watches.set wid (some t) else rm.latch.watches
      guards := if wlen then rm.latch.guards ++ [(pd, wline, tagOf c)] else rm.latch.guards } }

/-- A watch unit ends, with effect three periods later (R532, R533, R535). -/
def Room.endWatch (rm : Room) (wid : Fin 8) (t : Watch) (period : Nat) (ok : Bool) : Room :=
  let upd := rm.latch.updBits.toList.getD t.latch 0
  { rm with
    latch := { rm.latch with watches := rm.latch.watches.set wid.val none }
    wends := rm.wends ++ [
      { due := period + 3, pd := t.pd, val := ok, wlen := t.wlen, wline := t.wline, word := rm.latch.word t.latch,
        poison := !ok, bits := if ok then upd else 0, tag := t.tag }] }

/-- WATCH_END (R532): the watch's condition holds in this period. -/
def watchEnd (r : RoomId) (wid : Fin 8) (s : State) : State :=
  let rm := s.room r
  let g := s.wing (wingOf r)
  match rm.latch.watches[wid.val] with
  | none => s
  | some t => if g.clockOn && t.holds (rm.latch.word t.latch) then s.setRoom r (rm.endWatch wid t g.periods true) else s

/-- WATCH_TIMEOUT (R533, R535): the condition has not held by the end of the limit. -/
def watchTimeout (r : RoomId) (wid : Fin 8) (s : State) : State :=
  let rm := s.room r
  let g := s.wing (wingOf r)
  match rm.latch.watches[wid.val] with
  | none => s
  | some t =>
    let w := rm.latch.word t.latch
    if !(g.clockOn) || t.holds w || decide (g.periods < t.start + t.timeout) then s
    else
      let s := s.setRoom r (rm.endWatch wid t g.periods false)
      if t.timeout = 0 then s
      else s.latchFault r fcLatTimeout t.latch none t.tag
        [BitVec.ofNat 64 t.latch, t.gen.zeroExtend 64, BitVec.ofNat 64 (latArrived w), BitVec.ofNat 64 (latNext w),
          BitVec.ofNat 64 wid.val]

/-! ## Commands (R526 to R528, R571, R572) -/

/-- May a latch unit command start in this gc (R527)? -/
def State.latReady (s : State) (r : RoomId) (c : QCmd) : Bool :=
  s.atHead r 6 c && decide ((s.room r).latFree ≤ s.cyc r)

/-- The lane of the latch unit is taken for one gc. -/
def State.beginLat (s : State) (r : RoomId) (c : QCmd) : State :=
  (s.begin r 6 c 1 0).modRoom r fun rm => { rm with latFree := s.cyc r + 1 }

/-- LATCH_FIELD and LATCH_WATCH_BUSY of a command (R571, R572). [DEDUCED: log 75.] -/
def latErr (rm : Room) (op : Nat) (c : BitVec 128) : Option (Nat × List (BitVec 64)) :=
  let latch := field c 32 6
  let watch := op == 3 || op == 4
  let wlen := bit c 49
  let bad := field c 38 2 != 0 || bit c 55 || field c 59 5 != 0 || field c 92 4 != 0 || field c 120 8 != 0 ||
    decide (latch > 47) || (op == 3 && decide (field c 50 2 > 1)) || (op == 1 && bit c 48 && field c 64 16 == 0) ||
    (op == 4 && !(latMode (rm.latch.word latch))) || (watch && !wlen && field c 52 3 == 0) ||
    (watch && wlen && (field c 96 24 == 0 || decide (field c 80 12 > 3071)))
  if bad then some (fcLatField, cmdWords c)
  else if watch && (rm.latch.watches.toList.getD (field c 56 3) none).isSome then
    some (fcLatBusy, [BitVec.ofNat 64 (field c 56 3)])
  else none

/-- A latch unit command: its start, its faults, its effect. [DEDUCED: log 75.] -/
def latCmd (op : Nat) (r : RoomId) (c : QCmd) (eff : State → State) (s : State) : State :=
  if !(s.latReady r c) || !(opcodeOf c.word == op) then s
  else
    let started := s.beginLat r c
    if !c.pred then started
    else match latErr (s.room r) op c.word with
      | some e => started.cmdFault r c.word e.1 e.2
      | none => eff started

/-- The effect of LINIT (R528). -/
def linitEff (r : RoomId) (c : BitVec 128) (s : State) : State :=
  let latch := field c 32 6
  let gen := field c 40 8
  let expect := field c 64 16
  let w := (s.room r).latch.word latch
  let carried := decide (gen = (latGen w + 1) % 256)
  let next := latNext w
  let s := if !carried && next != 0 then
      s.latchFault r fcLatDiscard latch (some c) (tagOf c) [BitVec.ofNat 64 latch, BitVec.ofNat 64 next]
    else s
  let past := carried && decide (next > expect)
  let s := if past then s.latchFault r fcLatOverflow latch (some c) (tagOf c)
      [BitVec.ofNat 64 latch, BitVec.ofNat 64 gen, BitVec.ofNat 64 next, s.srcOf 0 r.val (tagOf c) 0]
    else s
  let arrived := if carried && !past then next else 0
  let w' := BitVec.ofNat 64 (pack [(0, 8, gen), (8, 1, b2n (bit c 48)), (16, 16, expect), (32, 16, arrived)])
  s.modRoom r fun rm => { rm with latch := (rm.latch.setWord latch w').release latch }

/-- The add of LADD and LBAR (R527). -/
def laddEff (r : RoomId) (c : BitVec 128) (s : State) : State :=
  s.latchArrive r (field c 32 6) (c.extractLsb' 40 8) (c.extractLsb' 64 16) 0 (s.srcOf 0 r.val (tagOf c) 0) (some c)

/-- The watch of LWATCH and LBAR (R527, R534). -/
def lwatchEff (r : RoomId) (c : BitVec 128) (atleast : Bool) (s : State) : State :=
  s.modRoom r fun rm => rm.startWatch c atleast (s.wing (wingOf r)).periods

/-- LINIT. -/
def linit (r : RoomId) (c : QCmd) (s : State) : State := latCmd 1 r c (linitEff r c.word) s

/-- LADD. [DEDUCED: log 75.] -/
def ladd (r : RoomId) (c : QCmd) (s : State) : State := latCmd 2 r c (laddEff r c.word) s

/-- LWATCH. -/
def lwatch (r : RoomId) (c : QCmd) (s : State) : State :=
  latCmd 3 r c (lwatchEff r c.word (field c.word 50 2 == 1)) s

/-- LBAR. [DEDUCED: log 75.] -/
def lbar (r : RoomId) (c : QCmd) (s : State) : State :=
  latCmd 4 r c (fun s => lwatchEff r c.word false (laddEff r c.word s)) s

/-- A latch unit command with a reserved OPCODE (R845). -/
def latReserved (r : RoomId) (c : QCmd) (s : State) : State :=
  if !(s.latReady r c) || [1, 2, 3, 4].contains (opcodeOf c.word) then s
  else
    let s := s.beginLat r c
    if c.pred then s.cmdFault r c.word fcLatField (cmdWords c.word) else s

/-- LINIT, and the latch unit commands with a reserved OPCODE (R845). -/
def execLinit (r : RoomId) (c : QCmd) (s : State) : Host.Outcome State Fault Refusal :=
  s.done (if opcodeOf c.word = 1 then linit r c s else latReserved r c s)

def execLadd (r : RoomId) (c : QCmd) (s : State) : Host.Outcome State Fault Refusal := s.done (ladd r c s)
def execLwatch (r : RoomId) (c : QCmd) (s : State) : Host.Outcome State Fault Refusal := s.done (lwatch r c s)
def execLbar (r : RoomId) (c : QCmd) (s : State) : Host.Outcome State Fault Refusal := s.done (lbar r c s)

/-- WATCH_END. -/
def execWatchEnd (r : RoomId) (wid : Fin 8) (s : State) : Host.Outcome State Fault Refusal := s.done (watchEnd r wid s)

/-- WATCH_TIMEOUT. -/
def execWatchTimeout (r : RoomId) (wid : Fin 8) (s : State) : Host.Outcome State Fault Refusal :=
  s.done (watchTimeout r wid s)

end Sys2Proof.Machine
end

