-- ==== Sys2Proof/Machine/Record.lean ====
section
/-! DEFINITION. What every part of the package shares with the Threshold and P0: Guestbook events (R724 to R731), messages
over Palbo (R653 to R659), replies and the Doorplate (R679, R682 to R684), job state changes (R681). -/

namespace Sys2Proof.Machine

/-- Quanta of the model's time base in one reference cycle. [DESIGN CHOICE: log 2.] -/
def RCQ : Nat := 53542288800

/-! ## Parameters of the configuration image (R699) -/

def State.param (s : State) (lo len : Nat) : Nat := field s.thr.boot.img.param lo len
def State.tickRc (s : State) : Nat := s.param 0 20
def State.bootM (s : State) : Nat := s.param 24 5
def State.freezeLimit (s : State) : Nat := s.param 32 32
def State.mailWatch (s : State) : Nat := s.param 64 32
def State.linkLost (s : State) : Nat := s.param 96 32
def State.startLead (s : State) : Nat := s.param 128 32
def State.alignPeriod (s : State) : Nat := s.param 160 32
def State.rspLimit (s : State) : Nat := s.param 192 32
def State.lateReport (s : State) : Nat := s.param 224 32

/-! ## Guestbook events -/

/-- ORIGIN of R724. -/
def originCode : Origin → Nat
  | .self => 0
  | .companion => 2
  | .rank _ => 3
  | .debug => 4
  | .board => 5

/-- The rank of an origin, zero for every other port. -/
def originOid : Origin → Nat
  | .rank n => n.toNat
  | _ => 0

/-- May a request's record be queued (R731)? While it may not, the request waits. [DESIGN CHOICE: log 28.] -/
def State.gbRoom (s : State) : Bool := decide (s.thr.guest.queue.length < 240)

/-- An event enters the pending queue (R728). Requests wait while it holds 240 or more events (`gbRoom`, R731); the records
of a load or a boot, which is one step here, may go beyond its 256 entries. [DESIGN CHOICE: log 28.] -/
def State.gbPush (s : State) (event origin oid : Nat) (parts : Nat) (body : Bytes) (wing : Nat := 0) : State :=
  let g := s.wing (Fin.ofNat 4 wing)
  let e : GbEvent :=
    { event := event, origin := origin, oid := oid, wing := wing, tick := s.job.tick,
      gc := min (g.periods - g.perB) (2 ^ 28 - 1), js := s.job.js.code, smode := s.job.smode.toNat, parts := parts,
      body := body }
  { s with thr := { s.thr with guest := { s.thr.guest with queue := s.thr.guest.queue ++ [e] } } }

/-- A FAULT event, or its coalescing with a pending one of the same code and Room (R725, R731). [DESIGN CHOICE: log 29.] -/
def State.gbFault (s : State) (rp : Report) : State :=
  let g := s.thr.guest
  let room := if rp.lroom = 0x7F#7 then 0xFF else rp.lroom.toNat
  let same (e : GbEvent) : Bool := e.event == 0x0D && getLE e.body 0 2 == rp.code.toNat && getLE e.body 2 1 == room
  let bump (e : GbEvent) : GbEvent :=
    { e with body := e.body.take 6 ++ leBytes 2 (min (getLE e.body 6 2 + 1) 0xFFFF) }
  if g.queue.length < 240 then
    s.gbPush 0x0D 0 0 1 (packBytes 8 [(0, 16, rp.code.toNat), (16, 8, room), (32, 16, rp.tag.toNat)]) rp.wing.toNat
  else if g.queue.any same then
    { s with thr := { s.thr with guest := { g with queue := updFirst same bump g.queue } } }
  else { s with thr := { s.thr with guest := { g with dropped := satAdd g.dropped 1, faultDrop := true } } }

/-! ## Messages over Palbo -/

/-- The header of R653 but for its sequencing fields. -/
def flitHdr (op rid status addr part : Nat) (multi poison : Bool) : BitVec 128 :=
  BitVec.ofNat 128 (pack [(18, 1, b2n poison), (19, 1, b2n multi), (20, 2, part), (22, 6, op), (32, 8, rid),
    (40, 4, status), (48, 48, addr)])

/-- Does a message carry a body in each of its flits (R654)? -/
def bodied (op : Nat) : Bool := op == 0x02 || op == 0x20

/-- The flits of a message: four of a MULTI message with data, else one (R654, R655). -/
def PMsg.flits (m : PMsg) (rid : Nat) : List PFlit :=
  let n := if m.multi && bodied m.op then 4 else 1
  (List.range n).map fun i =>
    { hdr := flitHdr m.op rid m.status m.addr i m.multi m.poison,
      body := if bodied m.op then slice m.data (64 * i) 64 else List.replicate 64 0 }

/-- The lowest request identifier without an outstanding request (R659). -/
def Palbo.freeRid (p : Palbo) : Option (BitVec 8) :=
  ((List.range 256).find? fun n => !(p.reqs.any fun q => q.rid.toNat == n)).map (BitVec.ofNat 8)

/-- Flits leave into the replay buffer with their sequence numbers, the acknowledgement of what has arrived, and the
credits they return (R653, R656). -/
def Palbo.emit (p : Palbo) (fs : List PFlit) : Palbo :=
  fs.foldl (fun p f =>
    let h := setField (setField f.hdr 0 8 p.txNext.toNat) 8 8 (p.expect - 1).toNat
    let h := setField h 16 1 (b2n p.nak)
    let h := setField (setField h 28 1 (b2n (decide (p.reqRet > 0)))) 29 1 (b2n (decide (p.monRet > 0)))
    { p with txNext := p.txNext + 1, unacked := p.unacked ++ [(p.txNext, { f with hdr := h })], reqRet := p.reqRet - 1,
             monRet := p.monRet - 1 }) p

/-- One message leaves if the link carries messages, the replay buffer has room, and a request has its credits and an
identifier (R656, R658, R659). -/
def Palbo.trySend (p : Palbo) (now : Nat) (m : PMsg) : Option Palbo :=
  let fs := m.flits m.rid.toNat
  if !p.live || decide (p.unacked.length + fs.length > 128) then none
  else match m.use with
  | none => some (p.emit fs)
  | some u =>
    match p.freeRid with
    | none => none
    | some r =>
      if fs.length > p.reqCred then none
      else
        let p := p.emit (m.flits r.toNat)
        some { p with reqCred := p.reqCred - fs.length, reqs := p.reqs ++ [
          { rid := r, op := m.op, addr := m.addr, multi := m.multi, use := u, sentAt := now }] }

/-- The waiting messages that can leave do, in order; a request that cannot holds the later ones (R658, R659). -/
def Palbo.pump (now : Nat) (p : Palbo) : List PMsg → List PMsg → Bool → Palbo
  | kept, [], _ => { p with waiting := kept }
  | kept, m :: t, stuck =>
    if stuck && m.use.isSome then Palbo.pump now p (kept ++ [m]) t true
    else match p.trySend now m with
      | some q => Palbo.pump now q kept t stuck
      | none => Palbo.pump now p (kept ++ [m]) t (stuck || m.use.isSome)

def State.palPump (s : State) : State := { s with pal := Palbo.pump s.rc s.pal [] s.pal.waiting false }

def State.palPut (s : State) (m : PMsg) : State :=
  ({ s with pal := { s.pal with waiting := s.pal.waiting ++ [m] } }).palPump

/-- A device request (R654); while the link is fenced a WR_OWN is dropped and counted (R689). -/
def State.palReq (s : State) (use : PUse) (op addr : Nat) (multi : Bool) (data : Bytes) (poison : Bool) : State :=
  if s.pal.fenced then
    if op = 0x02 then { s with pal := { s.pal with dropped := satAdd s.pal.dropped 1 } } else s
  else s.palPut { op := op, addr := addr, multi := multi, data := data, poison := poison, use := some use, rid := 0,
                  status := 0 }

/-- A response to the companion (R654), which ends its request. -/
def State.palResp (s : State) (op : Nat) (rid : BitVec 8) (status addr : Nat) (multi : Bool) (data : Bytes)
    (poison : Bool) : State :=
  let s := { s with pal := { s.pal with comp := s.pal.comp.filter (· != rid) } }
  if s.pal.fenced then s
  else s.palPut { op := op, addr := addr, multi := multi, data := data, poison := poison, use := none, rid := rid,
                  status := status }

/-- The base of companion memory in the device address space (R468). -/
def compBase : Nat := 0x030000000000

/-! ## Host configuration, Doorplate and replies -/

def Palbo.enabled (p : Palbo) : Bool := bit p.cfg 0
def Palbo.nslot (p : Palbo) : Nat := field p.cfg 1 6 + 1
def Palbo.submit (p : Palbo) : Nat := 256 * field p.cfg 8 40
def Palbo.plateAddr (p : Palbo) : Nat := 64 * field p.cfg 70 42

/-- The Doorplate line (R682). -/
def State.plateImage (s : State) (dseq : BitVec 32) : Bytes :=
  packBytes 64 [(0, 4, s.job.js.code), (4, 3, s.job.smode.toNat), (7, 1, b2n s.job.rt), (8, 1, b2n s.thr.clk.outOfStep),
    (16, 16, s.flt.jobCode.toNat), (32, 32, dseq.toNat), (64, 64, s.job.tick.toNat), (128, 64, s.job.stick.toNat),
    (192, 64, s.thr.progress.toNat), (256, 64, s.thr.prseq.toNat), (320, 32, s.pal.cardSeq.toNat),
    (352, 6, s.pal.cardSlot.toNat), (360, 4, s.pal.cardStatus.toNat), (368, 16, s.job.missCount.toNat),
    (384, 64, match s.thr.load.bin with | some b => b.imageId.toNat | none => 0), (448, 32, s.thr.guest.count.toNat)]

/-- DOORPLATE_ISSUE (R683, R684): a write that still waits in P0 is replaced. [DESIGN CHOICE: log 57.] -/
def State.doorplate (s : State) : State :=
  if !s.pal.enabled || s.pal.fenced then s
  else
    let d := s.pal.dseq + 1
    { s with pal := { s.pal with
        dseq := d
        plate := some { image := s.plateImage d, mark := s.pal.lineSeq }
        replaced := if s.pal.plate.isSome then satAdd s.pal.replaced 1 else s.pal.replaced } }

/-- A reply line (R679, R680), and the Doorplate that goes with it (R683). -/
def State.reply (s : State) (slot : Nat) (seq : BitVec 32) (opc status phase result : Nat) : State :=
  let line := packBytes 64 [(0, 32, seq.toNat), (32, 4, status), (36, 2, phase), (40, 8, opc), (48, 16, result),
    (64, 64, s.job.tick.toNat)]
  let s := { s with pal := { s.pal with cardSeq := seq, cardSlot := BitVec.ofNat 6 slot,
                                        cardStatus := BitVec.ofNat 4 status } }
  let s := if s.pal.fenced then s
    else s.palReq .reply 0x02 (s.pal.submit + 256 * slot + 0xC0 - compBase) false line false
  s.doorplate

/-! ## Job states -/

/-- A change of job state (R681): its Guestbook record (R725) with the fault code or card command that caused it, and the
Doorplate. Leaving RUNNING clears FROZEN (R809) and OUT_OF_STEP (R108); a job that leaves RUNNING cancels a pending
command (R810). [DESIGN CHOICE: log 17.] -/
def State.setState (s : State) (new : JState) (cause : Nat) : State :=
  if s.job.js = new then s
  else
    let old := s.job.js
    let s := s.gbPush 0x03 0 0 1 (packBytes 4 [(0, 8, old.code), (8, 8, new.code), (16, 16, cause)])
    let left := decide (old = .running)
    let pend := if left then 0 else s.job.pend
    let stick := if left then 0 else s.job.pendStick
    let job := { s.job with js := new, frozen := s.job.frozen && !left, pend := pend, pendStick := stick }
    let clk := { s.thr.clk with outOfStep := s.thr.clk.outOfStep && !left }
    let open_ := bit s.fab.porches[0].cfg 69
    let s := { s with job := job, thr := { s.thr with clk := clk } }
    let shut (p : Porch) : Porch := { p with cfg := setField p.cfg 69 1 0 }
    let s := { s with fab := { s.fab with porches := s.fab.porches.map shut } }
    let s := if open_ then s.gbPush 0x09 0 0 1 [4] else s
    s.doorplate

/-- The answer to every START card whose action ends (R680). -/
def State.endStart (s : State) (status result : Nat) : State :=
  s.pal.starts.foldl (fun (s : State) c => s.reply c.slot c.seq c.opc.toNat status 2 result)
    { s with pal := { s.pal with starts := [] } }

end Sys2Proof.Machine
end

