-- ==== Sys2Proof/Machine/Packets.lean ====
section
/-! DEFINITION. Packets, Porches and acknowledgements (R584 to R588, R594, R611 to R613). -/

namespace Sys2Proof.Machine

def State.porch (s : State) (p : PorchId) : Porch := s.fab.porches[p.val]
def State.setPorch (s : State) (p : PorchId) (x : Porch) : State :=
  { s with fab := { s.fab with porches := s.fab.porches.set p.val x } }
def State.modPorch (s : State) (p : PorchId) (f : Porch → Porch) : State := s.setPorch p (f (s.porch p))
def Porch.port (x : Porch) (n : Nat) : Port := x.ports.toList.getD n Port.reset
def Porch.setPort (x : Porch) (n : Nat) (q : Port) : Porch :=
  if h : n < 16 then { x with ports := x.ports.set n q } else x
def Porch.modPort (x : Porch) (n : Nat) (f : Port → Port) : Porch := x.setPort n (f (x.port n))

/-- The Porch of a package port, and its number there (R578). -/
def porchOf (p : PortId) : PorchId := if p.val < 16 then 0 else 1
def portIn (p : PortId) : Nat := p.val % 16

/-- The home Porch of a Room's Wing (R594). -/
def homePorch (r : RoomId) : PorchId := if (wingOf r).val < 2 then 0 else 1

def otherPorch (p : PorchId) : PorchId := if p = 0 then 1 else 0

/-! ## Headers (R584 to R586) -/

def pktKind (h : BitVec 128) : Nat := field h 21 4
def pktFlag (h : BitVec 128) : Bool := bit h 25
def pktBs (h : BitVec 128) : Bool := bit h 26
def pktLane (h : BitVec 128) : Nat := field h 27 1
def pktRetried (h : BitVec 128) : Bool := bit h 28
def pktDrank (h : BitVec 128) : BitVec 12 := h.extractLsb' 29 12
def pktDroom (h : BitVec 128) : BitVec 7 := h.extractLsb' 41 7
def pktSrank (h : BitVec 128) : BitVec 12 := h.extractLsb' 48 12
def pktSroom (h : BitVec 128) : BitVec 7 := h.extractLsb' 60 7
def pktAge (h : BitVec 128) : Nat := field h 67 5
def pktPlen (h : BitVec 128) : Nat := field h 72 9
def pktTag (h : BitVec 128) : BitVec 16 := h.extractLsb' 81 16
def pktArg (h : BitVec 128) : BitVec 30 := h.extractLsb' 97 30

def kLine : Nat := 1
def kMsg : Nat := 2
def kInc : Nat := 3
def kCredit : Nat := 4
def kAck : Nat := 5
def kCollUp : Nat := 6
def kCollDn : Nat := 7
def kStw : Nat := 8

/-- The header of a packet at its injection: AGE 0, the fields that every hop rewrites zero. -/
def pktHdr (kind : Nat) (flag retried : Bool) (drank : BitVec 12) (droom : Nat) (srank : BitVec 12) (sroom plen : Nat)
    (tag : BitVec 16) (arg : Nat) : BitVec 128 :=
  BitVec.ofNat 128 (pack [(21, 4, kind), (25, 1, b2n flag), (28, 1, b2n retried), (29, 12, drank.toNat), (41, 7, droom),
    (48, 12, srank.toNat), (60, 7, sroom), (72, 9, plen), (81, 16, tag.toNat), (97, 30, arg)])

/-- A packet without payload. -/
def barePkt (h : BitVec 128) : Pkt := { hdr := h, data := [], mask := 0, poison := 0 }

/-- The source word of a fabric packet (R748). -/
def pktSrc (h : BitVec 128) : BitVec 64 := srcWord 3 (pktSrank h).toNat (pktSroom h).toNat (pktTag h) 0

/-! ## The rank table (R587 to R589, R643, R644) -/

def Porch.nranks (x : Porch) : Nat := field x.cfg 12 13
def Porch.root (x : Porch) : BitVec 12 := x.cfg.extractLsb' 28 12
def Porch.dimSize (x : Porch) (d : Nat) : Nat := field x.cfg (40 + 6 * d) 6 + 1
def Porch.bsAge (x : Porch) : Nat := field x.cfg 64 5
def Porch.mapOpen (x : Porch) : Bool := bit x.cfg 69
def Porch.entry (x : Porch) (rank : Nat) : BitVec 64 := sget x.entries rank

/-- Is a rank in the job (R588)? -/
def Porch.rankOk (x : Porch) (rank : Nat) : Bool := decide (rank < x.nranks) && bit (x.entry rank) 40

/-- Coordinate `d` of a rank (R588). -/
def Porch.coord (x : Porch) (rank d : Nat) : Nat := field (x.entry rank) (16 + 6 * d) 6

/-! ## Collective contexts (R636, R641) -/

def collValid (e : BitVec 128) : Bool := bit e 0
def collOp (e : BitVec 128) : Nat := field e 1 2
def collHbm (e : BitVec 128) : Bool := bit e 3
def collBase (e : BitVec 128) : Nat := field e 4 12
def collCount (e : BitVec 128) : Nat := field e 16 13
def collStride (e : BitVec 128) : Nat := field e 32 12
def collRoom (e : BitVec 128) : Nat := field e 44 7
def collLines (e : BitVec 128) : Nat := field e 56 6 + 1
def collLatch (e : BitVec 128) : Nat := field e 64 6
def collGen (e : BitVec 128) : Nat := field e 72 8
def collAddr (e : BitVec 128) : Nat := field e 80 48

/-- The rank of a member, and the member number of a rank. -/
def memberRank (e : BitVec 128) (m : Nat) : Nat := collBase e + m * collStride e

def memberOf (e : BitVec 128) (rank : Nat) : Option Nat :=
  (List.range (collCount e)).find? fun m => memberRank e m == rank

/-- How far an instance number of eight bits lies ahead of the lowest instance that is not complete. [DEDUCED: log 67.] -/
def CollCtx.ahead (x : CollCtx) (inst : Nat) : Nat := (inst + 256 - x.first % 256) % 256

/-- Is a partial line one of a third instance, for which the engine is busy (R641)? [DEDUCED: log 67.] -/
def State.collBusy (s : State) (p : PorchId) (h : BitVec 128) : Bool :=
  let a := (pktArg h).toNat
  let x := (s.porch p).coll.toList.getD (nbits a 0 4) default
  let d := x.ahead (nbits a 4 8)
  pktKind h == kCollUp && !s.job.stopped && collValid x.entry && (memberOf x.entry (pktSrank h).toNat).isSome &&
    decide (2 ≤ d) && decide (d < 128)

/-! ## Acknowledgements (R611, R612) -/

/-- The ACK of an entry enters the Porch's injections. -/
def Porch.sendAck (x : Porch) (own : BitVec 12) (e : AckEntry) : Porch :=
  { x with ackOut := x.ackOut ++ [barePkt (pktHdr kAck false e.retried e.srank e.sroom.toNat own e.droom.toNat 0 0
      (min e.count 255))] }

/-- A delivered LINE, MSG or INC packet is counted (R612): a full entry, and the oldest of a full table, send their ACK. -/
def State.countAck (s : State) (r : RoomId) (srank : BitVec 12) (sroom : BitVec 7) (retried : Bool) : State :=
  let own := s.ownRank
  let droom := BitVec.ofNat 7 r.val
  let mine (e : AckEntry) : Bool := e.srank == srank && e.sroom == sroom && e.droom == droom
  let fresh : AckEntry := { srank := srank, sroom := sroom, droom := droom, count := 1, retried := retried }
  s.modPorch (homePorch r) fun x =>
    match x.acks.find? mine with
    | some e =>
      let e' := { e with count := e.count + 1, retried := e.retried || retried }
      if e'.count = 255 then ({ x with acks := delFirst mine x.acks }).sendAck own e'
      else { x with acks := updFirst mine (fun _ => e') x.acks }
    | none =>
      match x.acks with
      | o :: t => if x.acks.length ≥ 64 then ({ x with acks := t ++ [fresh] }).sendAck own o
        else { x with acks := x.acks ++ [fresh] }
      | [] => { x with acks := [fresh] }

/-- ACK_SEND (R612): the Porch sends the ACK of an entry. -/
def ackSend (p : PorchId) (srank : BitVec 12) (sroom droom : BitVec 7) (s : State) : State :=
  let own := s.ownRank
  let mine (e : AckEntry) : Bool := e.srank == srank && e.sroom == sroom && e.droom == droom
  s.modPorch p fun x =>
    match x.acks.find? mine with
    | some e => ({ x with acks := delFirst mine x.acks }).sendAck own e
    | none => x

def execAckSend (p : PorchId) (srank : BitVec 12) (sroom droom : BitVec 7) (s : State) :
    Host.Outcome State Fault Refusal := s.done (ackSend p srank sroom droom s)

/-! ## Arrival buffers (R420, R421) -/

/-- An arrival enters the Room's buffer, or is held for it while the buffer is full (R421). -/
def Room.arrive (rm : Room) (a : Arr) : Room :=
  if rm.pan.buf.length < 32 && rm.pan.held.isEmpty then { rm with pan := { rm.pan with buf := rm.pan.buf ++ [a] } }
  else { rm with pan := { rm.pan with held := rm.pan.held ++ [a] } }

/-- Held arrivals take the places that are free. [DESIGN CHOICE: log 85.] -/
def Pan.refill (p : Pan) : Pan :=
  let n := 32 - p.buf.length
  { p with buf := p.buf ++ p.held.take n, held := p.held.drop n }

/-- Has the arrival buffer a free place for a fabric packet (R421, R596)? -/
def Room.bufFree (rm : Room) : Bool := decide (rm.pan.buf.length < 32) && rm.pan.held.isEmpty

end Sys2Proof.Machine
end

