-- ==== Sys2Proof/Config.lean ====
section
/-! DEFINITION. What the spec leaves open: free values, and the functions of the standards it names. None has a body. -/

namespace Sys2Proof.Config

/-- A free 32-bit value: the block scale of a moving operand whose descriptor gives the elements of one K-block unequal
scale bytes (R161 and R336 with SAXIS 1), applied to the free counter and the block's place. -/
opaque freeScale : Nat → Nat → BitVec 32

/-- A free value of any width: the value of something that the spec names and leaves open, applied to the free counter. -/
opaque freeWord : Nat → BitVec 64

/-- A scalar counter in the verifier before its segment sets it: a dynamic counter has no value there (R396). -/
opaque dynCounter : Nat → BitVec 64

/-! ## Functions of the standards that the spec names and does not define -/

/-- SHA3-512 (R373, R727). -/
opaque sha3 : Bytes → BitVec 512

/-- The first bytes of SHAKE256 (R708, R710, R720). -/
opaque shake : Bytes → Nat → Bytes

/-- ML-DSA-87 verification: key, message, context string, signature (R377, R697). -/
opaque mldsaVerify : Bytes → Bytes → Bytes → Bytes → Bool

/-- ML-DSA-87.KeyGen_internal: the public and the private key (R710). -/
opaque mldsaKeyGen : Bytes → Bytes × Bytes

/-- ML-DSA-87 signing: private key, message, context string (R716). -/
opaque mldsaSign : Bytes → Bytes → Bytes → Bytes

/-- ML-KEM-1024.KeyGen_internal: the encapsulation and the decapsulation key (R710). -/
opaque mlkemKeyGen : Bytes → Bytes → Bytes × Bytes

/-- ML-KEM-1024.Decaps (R720). -/
opaque mlkemDecaps : Bytes → Bytes → Bytes

/-- KW unwrapping with AES-256; none when its integrity check fails (R720). -/
opaque kwUnwrap : Bytes → Bytes → Option Bytes

/-- AES-256-XTS decryption of one data unit: key pair, data unit number, ciphertext (R504). -/
opaque xtsDecrypt : Bytes → Nat → Bytes → Bytes

/-- The fuzzy extractor: PUF array and helper record (R708). -/
opaque fuzzyExtract : Bytes → Bytes → Bytes

/-- The CHECK value of a helper record: the spec does not say where the record holds it (R706). -/
opaque helperCheck : Bytes → Bytes

/-- The SHA3-512 of the Threshold boot ROM (R716). -/
opaque romHash : Nat → BitVec 512

end Sys2Proof.Config
end

