-- ==== Sys2Proof/Machine/Lanes.lean ====
section
/-! DEFINITION. What the vector engine computes (chapter 06): the operations on one lane, lane movement, reductions and
scans, curve tables. -/

namespace Sys2Proof.Machine

/-! ## One lane (R260 to R264) -/

def canonNan : BitVec 32 := 0x7FC00000#32

/-- The larger of two FP32 values (R260, R261). -/
def fMax (a b : BitVec 32) : BitVec 32 :=
  let x := ofF32 a
  let y := ofF32 b
  if x.isNan || y.isNan then canonNan
  else if x.lt y then b
  else if y.lt x then a
  else if x.isNeg then b else a

/-- The smaller of two FP32 values (R260, R261). -/
def fMin (a b : BitVec 32) : BitVec 32 :=
  let x := ofF32 a
  let y := ofF32 b
  if x.isNan || y.isNan then canonNan
  else if x.lt y then a
  else if y.lt x then b
  else if x.isNeg then a else b

/-- A condition of VCMP (R262). -/
def fCmp (cond : Nat) (a b : BitVec 32) : Bool :=
  let x := ofF32 a
  let y := ofF32 b
  if x.isNan || y.isNan then cond == 1 || cond == 6
  else match cond with
    | 0 => !(x.lt y) && !(y.lt x)
    | 1 => x.lt y || y.lt x
    | 2 => x.lt y
    | 3 => !(y.lt x)
    | 4 => y.lt x
    | 5 => !(x.lt y)
    | _ => false

/-- A 64-bit counter, or a 32-bit lane, as a signed integer converted to FP32 (R259, VI2F). -/
def intToF32 (i : Int) : BitVec 32 := (roundF32 (intVal i 0)).1.toF32

/-- An operation of R260 on lane values a, b, c; `none` for an opcode that does not work lane by lane. -/
def laneOp (op : Nat) (a b c : BitVec 32) : Option (BitVec 32) :=
  match op with
  | 0x10 => some (f32add a b)
  | 0x11 => some (f32add a (f32neg b))
  | 0x12 => some (f32mul a b)
  | 0x13 => some (f32fma a b c)
  | 0x14 => some (fMax a b)
  | 0x15 => some (fMin a b)
  | 0x16 => some (if (ofF32 a).isNan then canonNan else a &&& 0x7FFFFFFF#32)
  | 0x17 => some (if (ofF32 a).isNan then canonNan else f32neg a)
  | 0x20 => some (a + b)
  | 0x21 => some (a - b)
  | 0x22 => some (a * b)
  | 0x23 => some (a &&& b)
  | 0x24 => some (a ||| b)
  | 0x25 => some (a ^^^ b)
  | 0x26 => some (a <<< field b 0 5)
  | 0x27 => some (a >>> field b 0 5)
  | 0x28 => some (a.sshiftRight (field b 0 5))
  | 0x29 => some (if a.slt b then b else a)
  | 0x2A => some (if a.slt b then a else b)
  | 0x2E => some (intToF32 a.toInt)
  | _ => none

/-- Does an operation read operand B as FP32 (R259)? -/
def isFloatOp (op : Nat) : Bool := (decide (0x10 ≤ op) && decide (op ≤ 0x18))

/-- The result latency of an operation under a profile (R81, R260, R294). -/
def opLat (profile op : Nat) : Nat :=
  if decide (0x34 ≤ op) && decide (op ≤ 0x37) then 10 else if op = 0x3C then (if profile = 2 then 8 else 12) else 4

/-- The rounding named by an RND field that draws no random word (R264). -/
def rndPlain (n : Nat) : Rnd := if n = 1 then .rz else .rne

/-- VRND on one lane (R260, R264): the value in FP32 and its flags. -/
def laneRnd (el : Elem) (rnd : Nat) (sat : Bool) (a : BitVec 32) : BitVec 32 × BitVec 8 :=
  let r := convert el (rndPlain rnd) sat (ofF32 a)
  ((el.decode r.1).toF32, r.2)

/-- VF2I on one lane (R264). -/
def laneF2i (rnd : Nat) (a : BitVec 32) : BitVec 32 × BitVec 8 :=
  let r := convert (.int 32 true 0) (rndPlain rnd) true (ofF32 a)
  (BitVec.ofNat 32 r.1, r.2)

/-! ## Lane movement, reductions and scans (R260, R278, R279) -/

/-- VROT. -/
def rotLanes (half : Bool) (k : Nat) (a : List (BitVec 32)) : List (BitVec 32) :=
  (List.range 256).map fun i =>
    if half then a.getD (i / 128 * 128 + (i % 128 + k) % 128) 0 else a.getD ((i + k) % 256) 0

/-- R278's combine. -/
def combine (f : BitVec 32 → BitVec 32 → BitVec 32) (x y : Option (BitVec 32)) : Option (BitVec 32) :=
  match x, y with
  | some a, some b => some (f a b)
  | some a, none => some a
  | none, y => y

/-- One level of the tree: neighbours combined. -/
def pairUp (f : BitVec 32 → BitVec 32 → BitVec 32) : List (Option (BitVec 32)) → List (Option (BitVec 32))
  | x :: y :: t => combine f x y :: pairUp f t
  | l => l

/-- The tree over 2^n lanes. -/
def treeReduce (f : BitVec 32 → BitVec 32 → BitVec 32) : Nat → List (Option (BitVec 32)) → Option (BitVec 32)
  | 0, l => l.headD none
  | n + 1, l => treeReduce f n (pairUp f l)

/-- The value lanes of R278 and R279: the enabled ones. -/
def enabled (mask : BitVec 256) (a : List (BitVec 32)) : List (Option (BitVec 32)) :=
  (indexed a).map fun p => if bit mask p.1 then some p.2 else none

/-- What a reduction of no lane gives: +0, −infinity or +infinity. -/
def absentVal (op : Nat) : BitVec 32 := if op = 0x35 then 0xFF800000#32 else if op = 0x36 then 0x7F800000#32 else 0

/-- The combining function of a reduction. -/
def redFun (op : Nat) : BitVec 32 → BitVec 32 → BitVec 32 :=
  if op = 0x35 then fMax else if op = 0x36 then fMin else f32add

/-- VRSUM, VRMAX, VRMIN: the 256 result lanes. -/
def reduceLanes (op : Nat) (half : Bool) (mask : BitVec 256) (a : List (BitVec 32)) : List (BitVec 32) :=
  let v := enabled mask a
  let f := redFun op
  if half then
    List.replicate 128 ((treeReduce f 7 (v.take 128)).getD (absentVal op)) ++
      List.replicate 128 ((treeReduce f 7 (v.drop 128)).getD (absentVal op))
  else List.replicate 256 ((treeReduce f 8 v).getD (absentVal op))

/-- One step of R279 at distance `d`. -/
def scanStep (half : Bool) (d : Nat) (v : List (Option (BitVec 32))) : List (Option (BitVec 32)) :=
  (indexed v).map fun p =>
    if p.1 ≥ d && (!half || p.1 / 128 == (p.1 - d) / 128) then combine f32add (v.getD (p.1 - d) none) p.2 else p.2

/-- VSCAN. -/
def scanLanes (half : Bool) (mask : BitVec 256) (a : List (BitVec 32)) : List (BitVec 32) :=
  let ds := if half then [1, 2, 4, 8, 16, 32, 64] else [1, 2, 4, 8, 16, 32, 64, 128]
  (ds.foldl (fun v d => scanStep half d v) (enabled mask a)).map fun x => x.getD 0

/-! ## Curve tables (R281 to R284) -/

def CTable.mode (t : CTable) : Nat := field t.header 0 2
def CTable.n (t : CTable) : Nat := 2 ^ field t.header 8 3

/-- Coefficient `k` of a segment. -/
def CTable.coef (t : CTable) (sg k : Nat) : Val :=
  ofF32 ((t.segs.getD sg 0).extractLsb' (32 * k) 32)

/-- P(s, u) of R283, u exact. -/
def CTable.poly (t : CTable) (sg : Nat) (u : Val) : Val :=
  let deg := field t.header 11 2
  (List.range deg).reverse.foldl (fun y k => (roundF32 ((y.mul u).add (t.coef sg k))).1) (t.coef sg deg)

/-- A curve evaluated by one lane: its value and the segment it read. -/
abbrev CurveRes := Val × Option Nat

def hdrF32 (t : CTable) (lo : Nat) : Val := ofF32 (t.header.extractLsb' lo 32)

/-- A finite value as an integer multiple of 2^g, for g at most its exponent. -/
def Val.atExp (v : Val) (g : Int) : Int :=
  match v with
  | .fin n m e => intAt n m e g
  | _ => 0

def Val.exp (v : Val) : Int :=
  match v with
  | .fin _ _ e => e
  | _ => 0

def intAtExp (i : Int) (g : Int) : Val := .fin (decide (i < 0)) i.natAbs g

/-- LIN of R283. -/
def curveLin (t : CTable) (x : Val) : CurveRes :=
  let clamp := bit t.header 5
  let xmin := hdrF32 t 64
  let w := signed (field t.header 16 8) 8
  if x.isInf then
    (if clamp then (if x.isNeg then hdrF32 t 96 else hdrF32 t 128) else .nan, none)
  else
    let g := min (min x.exp xmin.exp) w
    let step : Int := ((2 ^ (w - g).toNat : Nat) : Int)
    let d := x.atExp g - xmin.atExp g
    let sg := d / step
    if clamp && decide (sg < 0) then (hdrF32 t 96, none)
    else if clamp && decide (sg ≥ (t.n : Int)) then (hdrF32 t 128, none)
    else
      let k := (min (max sg 0) ((t.n : Int) - 1)).toNat
      (t.poly k (roundF32 (intAtExp (d - (k : Int) * step) g)).1, some k)

/-- POW2 of R283. A power beyond ±1,000 gives the infinity or zero that the one rounding gives. -/
def curvePow2 (t : CTable) (x : Val) : CurveRes :=
  if x.isInf then (if x.isNeg then .fin false 0 0 else .inf false, none)
  else
    let g := min x.exp 0
    let one : Int := ((2 ^ (-g).toNat : Nat) : Int)
    let xi := x.atExp g
    let n := xi / one
    let f := xi - n * one
    let k := (f * (t.n : Int) / one).toNat
    let u := intAtExp (f * (t.n : Int) - (k : Int) * one) (g - (field t.header 8 3 : Int))
    let y := t.poly k u
    let q := max (-1000) (min 1000 n)
    ((roundF32 (y.mul (.fin false 1 q))).1, some k)

/-- The positive finite case of MANT. -/
def curveMantPos (t : CTable) (m : Nat) (e0 : Int) : CurveRes :=
  let l := Nat.log2 m
  let e := e0 + (l : Int)
  let root := bit t.header 4
  let n := if root then t.n / 2 else t.n
  let fr := m - 2 ^ l
  let k := fr * n / 2 ^ l
  let u := intAtExp ((fr * n - k * 2 ^ l : Nat) : Int) (-(l : Int) - (Nat.log2 n : Int))
  let sg := if root && decide (e % 2 = 1) then n + k else k
  let q := if root then e / 2 else e
  let y := t.poly sg u
  let v := match field t.header 2 2 with
    | 0 => y
    | 1 => (roundF32 (y.mul (.fin false 1 (-q)))).1
    | _ => (roundF32 (((intAtExp q 0).mul (hdrF32 t 96)).add y)).1
  (v, some sg)

/-- MANT of R283. -/
def curveMant (t : CTable) (x : Val) : CurveRes :=
  let sym := field t.header 6 2
  let pos (x : Val) : CurveRes := match x with
    | .inf _ => (hdrF32 t 192, none)
    | .fin _ m e => curveMantPos t m e
    | .nan => (.nan, none)
  if x.isZero then (if x.isNeg && sym == 1 then (hdrF32 t 160).neg else hdrF32 t 160, none)
  else if x.isNeg then
    if sym = 0 then (.nan, none)
    else
      let r := pos x.neg
      (if sym = 1 then r.1.neg else r.1, r.2)
  else pos x

/-- R283: the value of a curve table for one lane, and the segment read. -/
def curveEval (t : CTable) (a : BitVec 32) : BitVec 32 × Option Nat :=
  let v := ofF32 a
  if v.isNan then (canonNan, none)
  else
    let x := (roundF32 (v.mul (hdrF32 t 32))).1
    if x.isNan then (canonNan, none)
    else
      let r := match t.mode with
        | 0 => curveLin t x
        | 1 => curvePow2 t x
        | _ => curveMant t x
      (r.1.toF32, r.2)

/-- The 64-bit words of a curve table that a lane reads: the header, and the coefficients of its segment. -/
def curveWords (t : CTable) (sg : Option Nat) : List Nat :=
  [0, 1, 2, 3] ++ (match sg with
    | some k => if field t.header 11 2 ≥ 2 then [4 + 2 * k, 5 + 2 * k] else [4 + 2 * k]
    | none => [])

/-- R282: is a curve table invalid? -/
def curveInvalid (h : BitVec 256) : Bool :=
  let mode := field h 0 2
  let w := signed (field h 16 8) 8
  let xm := ofF32 (h.extractLsb' 64 32)
  let badX := match xm with
    | .fin _ m e =>
      let g := min e w
      decide ((m * 2 ^ (e - g).toNat) % 2 ^ (w - g).toNat ≠ 0) ||
        decide (m * 2 ^ (e - g).toNat ≥ 2 ^ 24 * 2 ^ (w - g).toNat)
    | _ => true
  field h 13 3 != 0 || field h 24 8 != 0 || mode == 3 || field h 8 3 == 7 ||
    (mode == 2 && (field h 2 2 == 3 || field h 6 2 == 3)) || (mode == 2 && bit h 4 && field h 8 3 == 0) ||
    (mode == 0 && badX)

end Sys2Proof.Machine
end

