-- ==== Sys2Proof/Machine/Crc.lean ====
section
/-! DEFINITION. The two cyclic codes: CRC-32C (0x1EDC_6F41, reflected) and the CRC-64 of R762. -/

namespace Sys2Proof.Machine

/-- One bit of a reflected CRC of width `w`. -/
def crcBit {w : Nat} (poly crc : BitVec w) : BitVec w := if bit crc 0 then (crc >>> 1) ^^^ poly else crc >>> 1

/-- One byte of a reflected CRC. -/
def crcByte {w : Nat} (poly : BitVec w) (crc : BitVec w) (b : BitVec 8) : BitVec w :=
  (List.range 8).foldl (fun c _ => crcBit poly c) (crc ^^^ b.zeroExtend w)

/-- The reflected polynomial 0x1EDC_6F41. -/
def poly32c : BitVec 32 := 0x82F63B78#32

/-- The reflected polynomial 0x42F0_E1EB_A9EA_3693 (R762). -/
def poly64 : BitVec 64 := 0xC96C5795D7870F42#64

/-- CRC-32C with initial value and final exclusive-or of all ones. -/
def crc32c (bs : Bytes) : BitVec 32 := bs.foldl (crcByte poly32c) (BitVec.allOnes 32) ^^^ BitVec.allOnes 32

/-- The running CRC of R762 over further bytes; the final exclusive-or is `crc64Out`. -/
def crc64Feed (c : BitVec 64) (bs : Bytes) : BitVec 64 := bs.foldl (crcByte poly64) c

def crc64Out (c : BitVec 64) : BitVec 64 := c ^^^ BitVec.allOnes 64

end Sys2Proof.Machine
end

