-- ==== Sys2Proof/Machine/Outlet.lean ====
section
/-! DEFINITION. The Outlet (chapter 07): outputs and their conflicts, routed lines, OCOPY, OMSG and OINC. -/

namespace Sys2Proof.Machine

/-! ## Routes and outputs -/

/-- The output a target uses (R345): 0 local Pantry, 1 Corridor, 2 departure buffer. -/
def outputOf (tgt : Nat) : Nat := if tgt = 0 then 0 else if tgt = 1 then 1 else 2

/-- The transit H of a Corridor line (R34, R348). -/
def hopsBetween (a b : RoomId) : Nat :=
  2 * (max (colOf a) (colOf b) - min (colOf a) (colOf b)) + (if rowOf a = rowOf b then 0 else 1)

/-- A logical Room number as an index. -/
def roomIdOf (n : Nat) : RoomId := Fin.ofNat 96 n

/-- The route of a store without RTE. -/
def localRoute : Route := { tgt := 0, flag := false, droom := 0, drank := 0, mch := 0, caddr := 0 }

/-- The descriptor faults of several entries (index, kind) in the order of R359 (R360). -/
def Room.descErrs (rm : Room) (tabs : Tables) (ds : List (Nat × Nat)) (c : BitVec 128) :
    Option (Nat × List (BitVec 64)) :=
  let at3 (code : Nat) (d : Nat × Nat) : Option (Nat × List (BitVec 64)) :=
    match rm.descErr tabs d.1 d.2 c with
    | some e => if e.1 = code then some e else none
    | none => none
  firstErr (ds.map (at3 fcDescDue) ++ ds.map (at3 fcDescKind) ++ ds.map (at3 fcDescField))

/-- OUT_ROUTE of a route descriptor (R349, R359). [DEDUCED: log 74.] -/
def routeErr (r : RoomId) (lrooms idx : Nat) (d : BitVec 256) : Option (Nat × List (BitVec 64)) :=
  let t := routeOf d
  let corridor := t.tgt == 1 && (wingOf (roomIdOf t.droom) != wingOf r || t.droom == r.val)
  let beyond := (t.tgt == 1 || t.tgt == 2) && decide (t.droom ≥ lrooms)
  if decide (t.tgt ≥ 5) || corridor || beyond then some (fcOutRoute, [BitVec.ofNat 64 idx]) else none

/-- The route of a tensor descriptor that names an output (R333, R338). -/
def Room.routeFor (rm : Room) (d : BitVec 256) : Route :=
  if (tensorOf d).rte then routeOf (rm.descOf (tensorOf d).rdesc) else localRoute

/-- The descriptors, with their kinds, that an output descriptor brings with it. -/
def outDescs (idx : Nat) (d : BitVec 256) : List (Nat × Nat) :=
  if (tensorOf d).rte then [(idx, 1), ((tensorOf d).rdesc, 3)] else [(idx, 1)]

/-- An Outlet fault: the report, the trace record and OUT_FAULT (R359, R370). -/
def State.outFault (s : State) (r : RoomId) (c : BitVec 128) (e : Nat × List (BitVec 64)) (detail : Nat := 0) : State :=
  (s.modRoom r fun rm => { rm with seq := { rm.seq with outFault := satAdd rm.seq.outFault 1 } }).cmdFault r c e.1 e.2
    detail

/-- The pending effect of a line at an output. -/
def OutLine.owns (l : OutLine) (p : Pend) : Bool :=
  decide (p.word = l.word) && decide (p.due = l.due) && (match p.eff with
    | .pan .. => l.output == 0
    | .toCorridor .. => l.output == 1
    | .depart _ => l.output == 2
    | .sendMsg .. => l.output == 2
    | _ => false)

/-- Does a line take its output in gc `i` (R341, R352)? A vector store line beats an Outlet command's, and between two
vector store lines that of the command that started earlier; the other is dropped, with OUT_CONFLICT in that gc. [DEDUCED: log 74.] -/
def State.takeOutput (s : State) (r : RoomId) (c : BitVec 128) (start output i due : Nat) : Bool × State :=
  let me : OutLine := { cyc := i, output := output, word := c, start := start, due := due }
  let put (s : State) : State := s.modRoom r fun rm => { rm with out := { rm.out with lines := me :: rm.out.lines } }
  let isVec (w : BitVec 128) : Bool := unitOf w == 4
  match (s.room r).out.lines.find? (fun l => l.cyc == i && l.output == output) with
  | none => (true, put s)
  | some l =>
    if (isVec c && !isVec l.word) || (isVec c && isVec l.word && decide (start < l.start)) then
      let s := s.modRoom r fun rm =>
        { rm with
          pend := delFirst l.owns rm.pend
          out := { rm.out with lines := rm.out.lines.filter (fun x => x ≠ l) }
          pan := { rm.pan with uses := rm.pan.uses.filter fun u =>
            !(output == 0 && decide (u.word = l.word) &&
              ((u.kind == 1 && u.cyc == i + 6) || (u.kind == 3 && u.cyc == i + 5))) } }
      (true, put (s.addPend r i l.word (.outLost output (tagOf c))))
    else (false, s.addPend r i c (.outLost output (tagOf l.word)))

/-- A line handed to the Outlet: destination line, written bits, bytes and poisoned words. -/
structure OutPiece where
  line   : Nat
  mask   : LineMask
  data   : Bytes
  poison : BitVec 32
  deriving DecidableEq, Repr, Inhabited

/-- The bytes of a line with its unwritten bits zero (R347, R761). -/
def OutPiece.image (p : OutPiece) : Bytes := overlay (List.replicate 256 0) p.mask p.data

/-- The 272 bytes that a line or message feeds into the mirror CRC (R761). -/
def mirrorBytes (offset output : Nat) (tag : BitVec 16) (dest : Nat) (drank : BitVec 12) (droom : Nat) (image : Bytes) :
    Bytes :=
  packBytes 16 [(0, 10, offset), (10, 2, output), (16, 16, tag.toNat), (32, 32, dest), (64, 12, drank.toNat),
    (76, 7, droom)] ++ slice image 0 256

/-- In Mirror mode, what reaches the Outlet in gc `i` is fed into the Room's window (R761, R766). -/
def State.feedMirror (s : State) (r : RoomId) (c : BitVec 128) (i output dest : Nat) (rt : Route) (image : Bytes) :
    State :=
  if !s.mir.enable then s
  else
    let off := (i - (s.wing (wingOf r)).ac0) % 1024
    let bytes := mirrorBytes off output (tagOf c) dest rt.drank rt.droom image
    s.addPend r i c (.mirrorFeed { tag := tagOf c, offset := BitVec.ofNat 10 off, output := BitVec.ofNat 2 output,
                                   crc := crc32c bytes } bytes)

/-- The members a multicast channel names (R552, R568). -/
def Comm.members (cm : Comm) (mch : Nat) : List (BitVec 12 × BitVec 7) :=
  match cm.mchs.find? (fun m => m.mch == mch) with
  | some m => m.members
  | none => []

/-- The destinations of a packet (R339, R615). -/
def Room.copiesOf (rm : Room) (rt : Route) : List (BitVec 12 × BitVec 7) :=
  if rt.tgt = 2 then [(rt.drank, BitVec.ofNat 7 rt.droom)]
  else if rt.tgt = 4 && decide (rt.mch < 8) then rm.comm.members rt.mch
  else []

/-- A line reaches the Outlet in gc `i` (R344, R345, R347). -/
def State.outLine (s : State) (r : RoomId) (c : BitVec 128) (start : Nat) (rt : Route) (i : Nat) (p : OutPiece) : State :=
  let output := outputOf rt.tgt
  let addr := if rt.tgt = 3 then rt.caddr + 256 * p.line else p.line
  let s := s.feedMirror r c i output addr rt p.image
  let x := s.takeOutput r c start output i (if output = 0 then i + 7 else i + 1)
  if !x.1 then x.2
  else if output = 0 then x.2.galWrite r c start p.line (i + 6) p.mask p.data p.poison
  else if output = 1 then x.2.addPend r (i + 1) c (.toCorridor c (roomIdOf rt.droom) p.line p.mask p.data p.poison)
  else
    x.2.addPend r (i + 1) c (.depart
      { kind := .line, tgt := rt.tgt, flag := rt.flag && !(rt.tgt == 4 && decide (rt.mch ≥ 0x80)),
        copies := (s.room r).copiesOf rt, mch := rt.mch, addr := addr,
        data := if rt.tgt = 3 then p.image else p.data, mask := if rt.tgt = 3 then fullMask else p.mask,
        poison := p.poison, tag := tagOf c, hdr := 0, lat := 0 })

/-- The lines of a store reach the Outlet one per gc, the last in gc `last` (R346, R846). -/
def State.storeLines (s : State) (r : RoomId) (c : BitVec 128) (start : Nat) (rt : Route) (last : Nat)
    (ps : List OutPiece) : State :=
  (indexed ps).foldl (fun s p => s.outLine r c start rt (last + p.1 + 1 - ps.length) p.2) s

/-- How much longer or shorter than a local store a routed one takes (R347). -/
def storeDur (r : RoomId) (rt : Route) (dur : Nat) : Nat :=
  if rt.tgt = 0 then dur else if rt.tgt = 1 then dur + hopsBetween r (roomIdOf rt.droom) + 1 else dur - 5

/-! ## OCOPY, OMSG, OINC -/

/-- The lane of the Outlet is taken (R341). -/
def State.beginOut (s : State) (r : RoomId) (c : QCmd) (occ dur : Nat) : State :=
  (s.begin r 5 c dur 0).modRoom r fun rm => { rm with out := { rm.out with free := s.cyc r + occ } }

/-- May an Outlet command start in this gc? -/
def State.outReady (s : State) (r : RoomId) (c : QCmd) : Bool :=
  s.atHead r 5 c && decide ((s.room r).out.free ≤ s.cyc r)

/-- Reserved bits of layout O (R342). [DEDUCED: log 74.] -/
def outReserved (c : BitVec 128) : Bool :=
  bit c 54 || bit c 79 || field c 86 2 != 0 || field c 112 16 != 0

/-- The byte ranges of the lines of a copy (R337). -/
def copyRange (t : Tensor) (n : Nat) : List (Nat × Nat) := [(t.base, 256 * n)]

/-- The faults of an OCOPY in the order of R359 and R572. [DEDUCED: log 74.] -/
def ocopyErr (rm : Room) (tabs : Tables) (r : RoomId) (lrooms : Nat) (c : BitVec 128) :
    Option (Nat × List (BitVec 64)) :=
  let di := field c 32 11
  let si := field c 43 11
  let dd := rm.descOf di
  let n := field c 55 9 + 1
  let rt := rm.routeFor dd
  let td := tensorOf dd
  let ts := tensorOf (rm.descOf si)
  firstErr [
    rm.descErrs tabs (outDescs di dd ++ [(si, 1)]) c,
    if rt.tgt = 3 then none else rangeErr di (copyRange td n),
    rangeErr si (copyRange ts n),
    if outReserved c || td.base % 256 != 0 || ts.base % 256 != 0 then some (fcOutField, cmdWords c) else none,
    if td.rte then routeErr r lrooms td.rdesc (rm.descOf td.rdesc) else none]

/-- A fault of a command that may be a descriptor's or the Outlet's. -/
def State.outOrDesc (s : State) (r : RoomId) (c : BitVec 128) (e : Nat × List (BitVec 64)) : State :=
  if e.1 = fcOutField || e.1 = fcOutRoute then s.outFault r c e else s.descFault r c e

/-- OCOPY (R343 to R347): line j is read in s + j and reaches the Outlet in s + 6 + j. -/
def ocopy (r : RoomId) (c : QCmd) (s : State) : State :=
  let rm := s.room r
  let at0 := s.cyc r
  let w := c.word
  let n := field w 55 9 + 1
  let dd := rm.descOf (field w 32 11)
  let rt := rm.routeFor dd
  let dur := if rt.tgt = 0 then n + 11 else if rt.tgt = 1 then n + 12 + hopsBetween r (roomIdOf rt.droom) else n + 6
  if !(s.outReady r c) || !(opcodeOf w == 1) then s
  else if !c.pred then (s.beginOut r c n dur).skipEcc r w ((outDescs (field w 32 11) dd).map (·.1) ++ [field w 43 11])
  else match ocopyErr rm s.tabs r s.job.lrooms w with
    | some e => (s.beginOut r c n dur).outOrDesc r w e
    | none =>
      let src := (tensorOf (rm.descOf (field w 43 11))).base / 256
      let acc := (List.range n).map fun j => (at0 + j, src + j)
      match rm.notReady (tagOf w) false (acc.take 1) with
      | some z => s.freeze r z
      | none =>
        let s := s.beginOut r c n dur
        let x := s.addRun r { (default : Run) with
          cmd := c, start := at0, descs := [dd, rm.descOf (tensorOf dd).rdesc] }
        let s := x.2.reads r w x.1 acc
        (List.range n).foldl (fun s j => s.addPend r (at0 + j) w (.copyLine x.1 j)) s

/-- Line j of an OCOPY has been read and is on its way to the Outlet. -/
def copyLine (r : RoomId) (id j : Nat) (s : State) : State :=
  match (s.room r).run id with
  | none => s
  | some u =>
    let w := u.cmd.word
    let dd := u.descs.headD 0
    let rt := if (tensorOf dd).rte then routeOf (u.descs.getD 1 0) else localRoute
    let g := (u.got.find? (fun g => g.cyc == u.start + j)).getD default
    let s := s.outLine r w u.start rt (u.start + 6 + j)
      { line := (tensorOf dd).base / 256 + j, mask := fullMask, data := g.bytes,
        poison := if g.bad then BitVec.allOnes 32 else 0 }
    if j = field w 55 9 then s.modRoom r (·.endRun id) else s

/-- The send channel of an OMSG (R548). -/
def Comm.chanOf (cm : Comm) (rt : Route) (mslot : Nat) : Option Nat :=
  cm.sends.findIdx? fun c => c.tgt == rt.tgt && c.mslot == mslot &&
    (if rt.tgt = 4 then c.mch == rt.mch
     else c.dests.any fun d => d.room.toNat == rt.droom && (rt.tgt == 0 || d.rank == rt.drank))

/-- The units a message costs at a mirror pointer, and the pointer after it (R542, R549). -/
def msgCost (runits wptr plen : Nat) : Nat × Nat :=
  let need := 1 + cdiv plen 16
  let tail := runits - wptr
  if need ≤ tail then (need, (wptr + need) % runits) else (need + tail, need % runits)

/-- Does every destination of a channel hold the credit a message costs (R549)? -/
def SendChan.credited (ch : SendChan) (plen : Nat) : Bool :=
  ch.dests.all fun d => decide ((msgCost ch.runits d.wmir plen).1 ≤ d.cred)

/-- A message leaves a channel (R549). -/
def SendChan.send (ch : SendChan) (plen : Nat) : SendChan :=
  { ch with
    seq := ch.seq + 1
    dests := ch.dests.map fun d =>
      let m := msgCost ch.runits d.wmir plen
      { d with cred := d.cred - m.1, wmir := m.2 } }

/-- The record header of R541. -/
def msgHeader (seq : BitVec 16) (hidx plen : Nat) (mc : Bool) (srank : BitVec 12) (sroom mch : Nat) (stag : BitVec 16) :
    BitVec 128 :=
  BitVec.ofNat 128 (pack [(0, 16, seq.toNat), (16, 4, hidx), (20, 9, plen), (30, 1, b2n mc), (32, 12, srank.toNat),
    (44, 7, sroom), (51, 3, if mc then mch else 0), (64, 16, 1 + cdiv plen 16), (80, 16, stag.toNat)])

/-- The faults of an OMSG or an OINC before MSG_NOCHAN (R572). [DEDUCED: log 74.] -/
def sendErr (rm : Room) (tabs : Tables) (r : RoomId) (lrooms : Nat) (c : BitVec 128) (msg : Bool) :
    Option (Nat × List (BitVec 64)) :=
  let di := field c 32 11
  let si := field c 43 11
  let d := rm.descOf di
  let plen := field c 70 9
  let base := (tensorOf (rm.descOf si)).base
  let tgt := (routeOf d).tgt
  let bad := if msg then decide (plen > 256) || decide (base % 256 + plen > 256) else decide (field c 80 6 > 47)
  firstErr [
    rm.descErrs tabs (if msg then [(di, 3), (si, 1)] else [(di, 3)]) c,
    if msg then rangeErr si [(base, plen)] else none,
    if outReserved c || bad || tgt == 1 || tgt == 3 then some (fcOutField, cmdWords c) else none,
    routeErr r lrooms di d]

/-- An unflagged increment that may overtake data is reported in debug mode (R769, 0x6). -/
def State.smokeOvertake (s : State) (r : RoomId) (c : BitVec 128) (rt : Route) (ds : List (BitVec 12 × BitVec 7)) : State :=
  if rt.flag then s
  else
    match ds.find? (fun d => (s.room r).out.trk.any fun t => t.drank == d.1 && t.droom == d.2 && t.count != 0) with
    | some d => s.smokeRep (some r) 6 (tagOf c) 0 (pack [(0, 12, d.1.toNat), (12, 7, d.2.toNat)])
    | none => s

/-- OMSG (R343, R346 to R348, R548, R549): the payload is read in s and the message reaches its output in s + 6. -/
def omsg (r : RoomId) (c : QCmd) (s : State) : State :=
  let rm := s.room r
  let at0 := s.cyc r
  let w := c.word
  let di := field w 32 11
  let si := field w 43 11
  let plen := field w 70 9
  let mslot := field w 64 2
  let rt := routeOf (rm.descOf di)
  let base := (tensorOf (rm.descOf si)).base
  if !(s.outReady r c) || !(opcodeOf w == 2) then s
  else if !c.pred then (s.beginOut r c 1 7).skipEcc r w [di, si]
  else match sendErr rm s.tabs r s.job.lrooms w true with
    | some e => (s.beginOut r c 1 7).outOrDesc r w e
    | none =>
      match rm.comm.chanOf rt mslot with
      | none => (s.beginOut r c 1 7).cmdFault r w fcMsgNochan (cmdWords w)
      | some ch =>
        let acc := if plen = 0 then [] else [(at0, base / 256)]
        match rm.notReady (tagOf w) false acc with
        | some z => s.freeze r z
        | none =>
          let s := s.beginOut r c 1 7
          let x := s.addRun r { (default : Run) with cmd := c, start := at0 }
          let s := x.2.reads r w x.1 acc
          let got := ((s.room r).run x.1).bind (fun u => u.got.head?)
          let payload := match got with
            | some g => slice g.bytes (base % 256) plen
            | none => []
          let bad := (got.map Got.bad).getD false
          let s := s.modRoom r (·.endRun x.1)
          let hidx := field w 66 4
          let linc := field ((rm.comm.handlers.getD hidx 0)) 0 3 == 4
          let copies := if rt.tgt = 0 then [] else rm.copiesOf rt
          let s := if linc then s.smokeOvertake r w rt copies else s
          let out := if rt.tgt = 0 then 0 else 2
          let s := s.feedMirror r w (at0 + 6) out mslot rt payload
          let y := if rt.tgt = 0 then (true, s) else s.takeOutput r w at0 2 (at0 + 6) (at0 + 6)
          if !y.1 then y.2
          else y.2.addPend r (at0 + 6) w (.sendMsg ch
            { kind := .msg, tgt := rt.tgt, flag := rt.flag, copies := copies, mch := rt.mch, addr := mslot,
              data := payload, mask := 0, poison := if bad then BitVec.allOnes 32 else 0, tag := tagOf w,
              hdr := BitVec.ofNat 128 (pack [(16, 4, hidx), (20, 9, plen)]), lat := 0 })

/-- A message that waits in its send gc has its credit (R549, R550). -/
def Room.msgReady (rm : Room) (chan : Nat) (d : Dep) : Bool :=
  match rm.comm.sends[chan]? with
  | some ch => ch.credited (field d.hdr 20 9)
  | none => true

/-- The gc of sending of a message (R546, R549): credit and mirrors move, the header is complete, and the message enters
the departure buffer or the Room's own arrival buffer in the next gc. -/
def sendMsg (r : RoomId) (chan : Nat) (d : Dep) (c : BitVec 128) (s : State) : State :=
  let rm := s.room r
  match rm.comm.sends[chan]? with
  | none => s
  | some ch =>
    let plen := field d.hdr 20 9
    let hdr := msgHeader ch.seq (field d.hdr 16 4) plen (d.tgt == 4) s.ownRank r.val d.mch d.tag
    let s := s.setRoom r { rm with comm := { rm.comm with sends := rm.comm.sends.set chan (ch.send plen) } }
    let d := { d with hdr := hdr }
    if d.tgt = 0 then s.addPend r (s.cyc r + 1) c (.localMsg d.addr d) else s.addPend r (s.cyc r + 1) c (.depart d)

/-- OINC (R343, R346, R347, R843). [DEDUCED: log 74.] -/
def oinc (r : RoomId) (c : QCmd) (s : State) : State :=
  let rm := s.room r
  let at0 := s.cyc r
  let w := c.word
  let di := field w 32 11
  let rt := routeOf (rm.descOf di)
  if !(s.outReady r c) || !(opcodeOf w == 3) then s
  else
    let started := s.beginOut r c 1 7
    if !c.pred then started.skipEcc r w [di]
    else match sendErr rm s.tabs r s.job.lrooms w false with
      | some e => started.outOrDesc r w e
      | none =>
        let latch := field w 80 6
        let gen := w.extractLsb' 88 8
        let inc := w.extractLsb' 96 16
        let copies := if rt.tgt = 0 then [] else rm.copiesOf rt
        let s := started.smokeOvertake r w rt copies
        let image := leBytes 4 (pack [(0, 8, gen.toNat), (16, 16, inc.toNat)])
        let s := s.feedMirror r w (at0 + 6) (if rt.tgt = 0 then 0 else 2) latch rt image
        if rt.tgt = 0 then s.addPend r (at0 + 7) w (.oinc latch gen inc)
        else
          let y := s.takeOutput r w at0 2 (at0 + 6) (at0 + 7)
          if !y.1 then y.2
          else y.2.addPend r (at0 + 7) w (.depart
            { kind := .inc, tgt := rt.tgt, flag := rt.flag, copies := copies, mch := rt.mch, addr := latch, data := [],
              mask := 0, poison := 0, tag := tagOf w, hdr := 0,
              lat := BitVec.ofNat 64 (pack [(0, 6, latch), (6, 8, gen.toNat), (14, 16, inc.toNat)]) })

/-- An Outlet command with a reserved OPCODE (R845): OUT_FIELD, OCC 1, DUR 1. -/
def outletReserved (r : RoomId) (c : QCmd) (s : State) : State :=
  if !(s.outReady r c) || [1, 2, 3].contains (opcodeOf c.word) then s
  else
    let s := s.beginOut r c 1 1
    if c.pred then s.outFault r c.word (fcOutField, cmdWords c.word) else s

/-- OCOPY, and the Outlet commands with a reserved OPCODE (R845). -/
def execOcopy (r : RoomId) (c : QCmd) (s : State) : Host.Outcome State Fault Refusal :=
  s.done (if opcodeOf c.word = 1 then ocopy r c s else outletReserved r c s)

/-- OMSG. -/
def execOmsg (r : RoomId) (c : QCmd) (s : State) : Host.Outcome State Fault Refusal := s.done (omsg r c s)

/-- OINC. -/
def execOinc (r : RoomId) (c : QCmd) (s : State) : Host.Outcome State Fault Refusal := s.done (oinc r c s)

end Sys2Proof.Machine
end

