-- ==== Sys2Proof/Machine/Vector.lean ====
section
/-! DEFINITION. The vector engine (chapter 06): register operations, tensor groups, Hatch access, the generator. -/

namespace Sys2Proof.Machine

/-! ## Issue (R251, R256, R300) -/

/-- May a vector command start in this gc (R251)? -/
def State.vecReady (s : State) (r : RoomId) (c : QCmd) (op : Nat) : Bool :=
  s.atHead r 4 c && decide (opcodeOf c.word = op) && decide ((s.room r).vec.free ≤ s.cyc r)

/-- A vector command takes the issue pipe for `occ` gc. -/
def State.beginVec (s : State) (r : RoomId) (c : QCmd) (occ dur : Nat) : State :=
  (s.begin r 4 c dur 0).modRoom r fun rm => { rm with vec := { rm.vec with free := s.cyc r + occ } }

/-- A vector fault of R295: the report, the trace record and SKIP_FAULT (R300). -/
def State.vecFault (s : State) (r : RoomId) (c : BitVec 128) (e : Nat × List (BitVec 64)) : State :=
  (s.modRoom r fun rm => { rm with vec := { rm.vec with skipFault := satAdd rm.vec.skipFault 1 } }).cmdFault r c e.1 e.2

/-- A fault of a vector command, which may be a descriptor's or the Outlet's. -/
def State.vecOrDesc (s : State) (r : RoomId) (c : BitVec 128) (e : Nat × List (BitVec 64)) : State :=
  if e.1 = fcOutRoute then s.outFault r c e
  else if decide (fcDescDue ≤ e.1) && decide (e.1 ≤ fcDescRange) then s.descFault r c e
  else s.vecFault r c e

/-- ISSUE_GC counts a command that ran (R300). -/
def Room.countIssue (rm : Room) (occ : Nat) : Room := { rm with vec := { rm.vec with issueGc := satAdd rm.vec.issueGc occ } }

/-- The 256 lanes of a register (R247). -/
def regLanes (regs : SMap 32) (n : Nat) : List (BitVec 32) := sgetRange regs (256 * n) 256

/-- A mask register; VM0 reads as all ones (R249). -/
def Room.vmOf (rm : Room) (n : Nat) : BitVec 256 := if n = 0 then BitVec.allOnes 256 else rm.vec.vm.toList.getD n 0

/-- What debug mode sees of a register read and a register write (R253, R254, R769). -/
def State.smokeVec (s : State) (r : RoomId) (c : BitVec 128) (reads : List Nat) (write : Option (Nat × Nat)) : State :=
  let cyc := s.cyc r
  let early := (s.room r).pend.find? fun p => decide (cyc < p.due) && (match p.eff with
    | .vreg n _ _ => reads.contains n
    | _ => false)
  let s := match early with
    | some p => s.smokeRep (some r) 1 (tagOf c) (tagOf p.word) (match p.eff with | .vreg n _ _ => n | _ => 0)
    | none => s
  match write with
  | none => s
  | some (n, due) =>
    match (s.room r).pend.find? (fun p => p.due == due && (match p.eff with | .vreg m _ _ => m == n | _ => false)) with
    | some p => s.smokeRep (some r) 2 (tagOf c) (tagOf p.word) n
    | none => s

/-- A result lands in a register after its latency (R252). -/
def State.writeReg (s : State) (r : RoomId) (c : BitVec 128) (lat reg : Nat) (mask : BitVec 256) (vals : List (BitVec 32)) :
    State :=
  let due := s.cyc r + lat
  (s.smokeVec r c [] (some (reg, due))).addPend r due c (.vreg reg mask vals)

/-! ## Layout A (R258 to R264) -/

/-- Reserved bits of layout A, and the conditions of R295 on it. -/
def layoutABad (op : Nat) (c : BitVec 128) : Bool :=
  field c 38 2 != 0 || field c 46 2 != 0 || field c 54 2 != 0 || field c 62 2 != 0 || field c 70 2 != 0 ||
    field c 83 13 != 0 || (op == 0x18 && (field c 56 3 == 7 || field c 32 3 == 0 || decide (field c 32 6 > 7)))

/-- Operand B: a register, or one scalar in every lane (R258, R259). [DEDUCED: log 79.] -/
def Room.operandB (rm : Room) (op : Nat) (c : BitVec 128) : List (BitVec 32) :=
  if !(bit c 67) then regLanes rm.vec.regs (field c 48 6)
  else
    let v := if !(bit c 68) then c.extractLsb' 96 32
      else
        let sc := rm.scOf (field c 96 4)
        if isFloatOp op then intToF32 sc.toInt else sc.extractLsb' 0 32
    List.replicate 256 v

/-- FORMAT_UNDEFINED of VRND and VF2I (R129, R171, R180). -/
def rndErr (tabs : Tables) (op : Nat) (c : BitVec 128) : Option (Nat × List (BitVec 64)) :=
  let fmt := field c 72 8
  let rnd := field c 80 2
  let body := [BitVec.ofNat 64 fmt, 0#64, BitVec.ofNat 64 rnd]
  if op = 0x2C then
    match fmtErr tabs fmt 0 rnd false with
    | some e => some e
    | none => if rnd = 3 || decide (0x40 ≤ fmt) then some (fcFormat, body) else none
  else if op = 0x2D && rnd = 3 then some (fcFormat, body)
  else none

/-- The faults of a layout-A command in the order of R295. -/
def layoutAErr (tabs : Tables) (op : Nat) (c : BitVec 128) : Option (Nat × List (BitVec 64)) :=
  firstErr [
    rndErr tabs op c,
    if layoutABad op c then some (fcVecField, cmdWords c) else none,
    if op = 0x3C && (tabs.ctab.toList.getD (field c 96 5) none).isNone then
      some (fcVecCurve, [BitVec.ofNat 64 (field c 96 5)]) else none]

/-- Curve memory is read for the lanes in `mask`: lanes that used a word with a double-bit error give NaN (R280, R284). -/
def State.curveLanes (s : State) (r : RoomId) (c : BitVec 128) (slot : Nat) (mask : BitVec 256) (a : List (BitVec 32)) :
    List (BitVec 32) × State :=
  match s.tabs.ctab.toList.getD slot none with
  | none => (a, s)
  | some t =>
    let due (w : Nat) : Bool := sget s.tabs.ctabDue (slot * 132 + w) == 1#1
    let res := (indexed a).map fun p =>
      if !(bit mask p.1) then (p.2, [])
      else
        let v := curveEval t p.2
        let bad := (curveWords t v.2).filter due
        (if bad.isEmpty then v.1 else canonNan, bad)
    let words := ((res.map Prod.snd).flatten).eraseDups
    (res.map Prod.fst, words.foldl (fun s w => s.cmdFault r c fcCtabDue [BitVec.ofNat 64 slot, BitVec.ofNat 64 w]) s)

/-- What a layout-A command other than VCMP and VCRV computes: its 256 result lanes and flags. -/
def layoutAVal (rm : Room) (tabs : Tables) (op : Nat) (c : BitVec 128) : List (BitVec 32) × BitVec 8 :=
  let a := regLanes rm.vec.regs (field c 40 6)
  let b := rm.operandB op c
  let cc := regLanes rm.vec.regs (field c 56 6)
  let mask := rm.vmOf (field c 64 3)
  let half := bit c 69
  let rnd := field c 80 2
  let flagged (f : BitVec 32 → BitVec 32 × BitVec 8) : List (BitVec 32) × BitVec 8 :=
    let rs := a.map f
    (rs.map Prod.fst, (indexed rs).foldl (fun x p => if bit mask p.1 then x ||| p.2.2 else x) 0#8)
  if op = 0x19 then
    let m := rm.vmOf (field c 56 3)
    ((indexed (a.zip b)).map fun p => if bit m p.1 then p.2.1 else p.2.2, 0)
  else if op = 0x2C then flagged (laneRnd (((fmtOf tabs.ptab (field c 72 8)).map (·.elem)).getD (.flt fp32)) rnd (bit c 82))
  else if op = 0x2D then flagged (laneF2i rnd)
  else if op = 0x30 then (rotLanes half (field c 96 8) a, 0)
  else if op = 0x31 then (List.replicate 256 (a.getD (field c 96 8) 0), 0)
  else if decide (0x34 ≤ op) && decide (op ≤ 0x36) then (reduceLanes op half mask a, 0)
  else if op = 0x37 then (scanLanes half mask a, 0)
  else ((indexed (a.zip b)).map fun p => (laneOp op p.2.1 p.2.2 (cc.getD p.1 0)).getD 0, 0)

/-- A layout-A command (R258 to R264). -/
def layoutA (op : Nat) (r : RoomId) (c : QCmd) (s : State) : State :=
  let w := c.word
  let lat := opLat s.job.runProfile.toNat op
  if !(s.vecReady r c op) then s
  else
    let started := s.beginVec r c 1 lat
    if !c.pred then started
    else match layoutAErr s.tabs op w with
      | some e => started.vecFault r w e
      | none =>
        let rm := s.room r
        let mask := rm.vmOf (field w 64 3)
        let va := field w 40 6
        let s := (started.modRoom r (·.countIssue 1)).smokeVec r w
          ([va] ++ (if bit w 67 then [] else [field w 48 6]) ++ (if op = 0x13 then [field w 56 6] else [])) none
        if op = 0x18 then
          let a := regLanes rm.vec.regs va
          let b := rm.operandB op w
          let bits := (indexed (a.zip b)).foldl (fun (m : BitVec 256) p =>
            if fCmp (field w 56 3) p.2.1 p.2.2 then m ||| (1#256 <<< p.1) else m) 0#256
          s.addPend r (s.cyc r + lat) w (.vmask (field w 32 3) mask bits)
        else if op = 0x3C then
          let x := s.curveLanes r w (field w 96 5) mask (regLanes rm.vec.regs va)
          x.2.writeReg r w lat (field w 32 6) mask x.1
        else
          let x := layoutAVal rm s.tabs op w
          (s.modRoom r (·.setFmt x.2 (tagOf w))).writeReg r w lat (field w 32 6) mask x.1

/-! ## Groups (R266 to R268, R846) -/

/-- A part of a row: row, first element, count. -/
abbrev RowPart := Nat × Nat × Nat

/-- A number put into a rising list without repetition. -/
def insertNat (n : Nat) : List Nat → List Nat
  | [] => [n]
  | a :: t => if n < a then n :: a :: t else if n = a then a :: t else a :: insertNat n t

def sortNat (l : List Nat) : List Nat := l.foldl (fun acc n => insertNat n acc) []

/-- The scale offsets of a part of a row. -/
def segScales (t : Tensor) (g : RowPart) : List Nat :=
  if t.smode = 0 then [] else ((List.range g.2.2).map fun i => scaleOff t (g.2.1 + i) g.1).eraseDups

/-- The element bytes of a part of a row: Pantry offset and length. -/
def segBytes (bits : Nat) (t : Tensor) (g : RowPart) : Nat × Nat :=
  let b := elemBytes bits g.2.1 g.2.2
  (t.base + g.1 * t.pitch + b.1, b.2)

/-- The lines of a group in the order of R846. -/
def segLines (bits : Nat) (t : Tensor) (gs : List RowPart) : List Nat :=
  let el := sortNat ((gs.map fun g => let b := segBytes bits t g; linesOf b.1 b.2).flatten)
  el ++ (sortNat ((gs.map fun g => (segScales t g).map (· / 256)).flatten)).filter (fun l => !el.contains l)

/-- The byte ranges of a group for R337. -/
def segRanges (bits : Nat) (t : Tensor) (gs : List RowPart) : List (Nat × Nat) :=
  (gs.map fun g => segBytes bits t g :: (segScales t g).map fun o => (o, 1)).flatten

/-- The parts of a group: of one row, or of a pair of rows read from the Hatch (R266, R276). -/
def groupSegs (pair : Bool) (t : Tensor) (g : Nat) : List RowPart :=
  if pair then ([2 * g, 2 * g + 1].filter (fun y => decide (y < t.yext))).map fun y => (y, 0, min t.xext 128)
  else [groupOf t g]

/-- The element (row, column) of lane `i` of a group. -/
def laneElem (pair : Bool) (t : Tensor) (g i : Nat) : Option (Nat × Nat) :=
  if pair then
    let y := 2 * g + i / 128
    if y < t.yext && decide (i % 128 < t.xext) then some (y, i % 128) else none
  else
    let p := groupOf t g
    if i < p.2.2 then some (p.1, p.2.1 + i) else none

/-- Element bits of a format ID, 8 where it cannot be resolved. -/
def bitsOf (tabs : Tables) (fmt : Nat) : Nat := ((fmtOf tabs.ptab fmt).map (·.elem.bits)).getD 8

/-- The group number of a layout-B command (R269). -/
def groupNo (rm : Room) (c : BitVec 128) : Nat := ((rm.scOf (field c 56 4)).toNat + field c 96 16) % 2 ^ 64

/-- The line count by which a command is timed (R361). -/
def timedLines (rm : Room) (tabs : Tables) (idx : Nat) (c : BitVec 128) (pair : Bool) (g : Nat) : Nat :=
  let t := tensorOf (rm.descOf idx)
  if (rm.descErr tabs idx 1 c).isSome || (fmtOf tabs.ptab t.fmt).isNone then 1
  else max 1 (segLines (bitsOf tabs t.fmt) t (groupSegs pair t g)).length

/-- VEC_LAYOUT of a group (R268). -/
def layoutErr (idx g ln : Nat) : Option (Nat × List (BitVec 64)) :=
  if ln > 4 then some (fcVecLayout, [BitVec.ofNat 64 idx, BitVec.ofNat 64 g, BitVec.ofNat 64 ln]) else none

/-- Reserved bits of layout B (R265), and HROW in row pairs. -/
def layoutBBad (op : Nat) (c : BitVec 128) : Bool :=
  field c 46 2 != 0 || field c 54 2 != 0 || bit c 95 || field c 112 16 != 0 ||
    ((op == 4 || op == 5) && !(bit c 45) && decide (field c 88 7 > 63))

/-! ## VLD (R269, R270, R298, R847) -/

/-- The FP32 lanes of a group that a running command has read, its group having started in `at0`; unread lanes are +0. -/
def State.groupLanes (s : State) (r : RoomId) (u : Run) (desc : BitVec 256) (pair : Bool) (g at0 : Nat) :
    List (BitVec 32) × State :=
  let t := tensorOf desc
  let el := ((fmtOf s.tabs.ptab t.fmt).map (·.elem)).getD (.flt fp32)
  let lines := segLines el.bits t (groupSegs pair t g)
  let cycOf (l : Nat) : Nat := at0 + (lines.findIdx (· == l))
  let byteAt (o : Nat) : Nat := ((u.bytes (cycOf (o / 256)) o 1).headD 0).toNat
  let badAt (o : Nat) : Bool := u.bad (cycOf (o / 256)) (o / 256)
  let cell (i : Nat) : Option (Nat × Bool × Val) :=
    (laneElem pair t g i).map fun e =>
      let p := 8 * (t.base + e.1 * t.pitch) + e.2 * el.bits
      let bs := (List.range ((p % 8 + el.bits + 7) / 8)).map fun k => p / 8 + k
      let code := nbits (leNat (bs.map fun o => BitVec.ofNat 8 (byteAt o))) (p % 8) el.bits
      let so := scaleOff t e.2 e.1
      (code, bs.any badAt || (t.smode != 0 && badAt so),
       if t.smode = 0 then .fin false 1 0 else scaleVal t.smode (byteAt so))
  let cells := (List.range 256).map cell
  let pt := s.readPtab r u.cmd.word t.fmt el (cells.filterMap fun x => x.map (·.1))
  (cells.map fun x => match x with
    | none => 0#32
    | some (code, bad, sc) =>
      if bad || pt.1 then canonNan else (roundF32 ((el.decode code).mul sc)).1.toF32, pt.2)

/-- The faults of a VLD in the order of R360 and R295. [DEDUCED: log 78.] -/
def vldErr (rm : Room) (tabs : Tables) (c : BitVec 128) : Option (Nat × List (BitVec 64)) :=
  let idx := field c 32 11
  let t := tensorOf (rm.descOf idx)
  let g := groupNo rm c
  let bits := bitsOf tabs t.fmt
  let here := decide (g < groupCount t)
  firstErr [
    rm.descErrs tabs [(idx, 1)] c,
    if here then rangeErr idx (segRanges bits t (groupSegs false t g)) else none,
    fmtErr tabs t.fmt t.smode 0 false,
    if layoutBBad 1 c || !here then some (fcVecField, cmdWords c) else none,
    layoutErr idx g (segLines bits t (groupSegs false t g)).length]

/-- VLD. -/
def vld (r : RoomId) (c : QCmd) (s : State) : State :=
  let rm := s.room r
  let at0 := s.cyc r
  let w := c.word
  let idx := field w 32 11
  let desc := rm.descOf idx
  let t := tensorOf desc
  let g := groupNo rm w
  let ln := timedLines rm s.tabs idx w false g
  let dur := decLat s.tabs t.fmt + ln - 1
  if !(s.vecReady r c 1) then s
  else
    let started := s.beginVec r c ln dur
    if !c.pred then started.skipEcc r w [idx]
    else match vldErr rm s.tabs w with
      | some e => started.vecOrDesc r w e
      | none =>
        let acc := (indexed (segLines (bitsOf s.tabs t.fmt) t (groupSegs false t g))).map fun p => (at0 + p.1, p.2)
        match rm.notReady (tagOf w) false (acc.take 1) with
        | some z => s.freeze r z
        | none =>
          let s := started.modRoom r (·.countIssue ln)
          let s := s.smokeVec r w [] (some (field w 48 6, at0 + dur))
          let x := s.addRun r { (default : Run) with cmd := c, start := at0, descs := [desc], e := g }
          (x.2.reads r w x.1 acc).addPend r (at0 + ln - 1) w (.vldEnd x.1)

/-- The last line of a VLD has been read: its register is due at the end of its DUR. -/
def vldEnd (r : RoomId) (id : Nat) (s : State) : State :=
  match (s.room r).run id with
  | none => s
  | some u =>
    let w := u.cmd.word
    let desc := u.descs.headD 0
    let t := tensorOf desc
    let x := s.groupLanes r u desc false u.e u.start
    let ln := (segLines (bitsOf s.tabs t.fmt) t (groupSegs false t u.e)).length
    let mask := (s.room r).vmOf (field w 60 3)
    x.2.modRoom r fun rm =>
      let rm := rm.endRun id
      { rm with pend := rm.pend ++ [{ due := u.start + decLat s.tabs t.fmt + ln - 1, start := u.start, word := w,
                                      eff := .vreg (field w 48 6) mask x.1 }] }

/-! ## Stores (R271, R272, R346, R347) -/

/-- How a store rounds and draws (R171, R182, R185). -/
structure StoreHow where
  rnd     : Nat
  sat     : Bool
  purpose : BitVec 16
  roomkey : Bool
  iter    : BitVec 64
  seed    : BitVec 64
  lroom   : Nat
  deriving DecidableEq, Repr, Inhabited

/-- The rounding of the element that a lane stores. -/
def StoreHow.rndOf (h : StoreHow) (t : Tensor) (e : Nat × Nat) : Rnd :=
  if h.rnd = 2 then .sr (randomWord h.seed (logicalIdx t e.2 e.1) h.purpose t.tid h.lroom h.roomkey h.iter)
  else rndPlain h.rnd

/-- A value written at a bit address: address, width, value. -/
abbrev BitWrite := Nat × Nat × Nat

/-- The writes and flags of one block of lanes (R177): its lanes with their elements and values. -/
def storeBlock (el : Elem) (t : Tensor) (h : StoreHow) (lanes : List ((Nat × Nat) × Val)) : List BitWrite × BitVec 8 :=
  let addr (e : Nat × Nat) : Nat := 8 * (t.base + e.1 * t.pitch) + e.2 * el.bits
  match lanes with
  | [] => ([], 0)
  | l :: _ =>
    if t.smode = 0 then
      let rs := lanes.map fun x => (x.1, convert el (h.rndOf t x.1) h.sat x.2)
      (rs.map fun x => (addr x.1, el.bits, x.2.1), rs.foldl (fun f x => f ||| x.2.2) 0#8)
    else
      let r := convertBlock el t.smode (lanes.map fun x => h.rndOf t x.1) (lanes.map Prod.snd)
      ((8 * scaleOff t l.1.2 l.1.1, 8, r.1) :: (lanes.zip r.2.1).map fun x => (addr x.1.1, el.bits, x.2), r.2.2)

/-- The writes and flags of a group (R271): the lanes in `mask` that hold an element, block by block. -/
def storeGroup (el : Elem) (t : Tensor) (pair : Bool) (g : Nat) (h : StoreHow) (mask : BitVec 256)
    (vals : List (BitVec 32)) : List BitWrite × BitVec 8 :=
  let lanes := ((indexed vals).filterMap fun p =>
    if bit mask p.1 then (laneElem pair t g p.1).map fun e => (e, ofF32 p.2) else none)
  let blockOf (e : Nat × Nat) : Nat × Nat := (e.1, if t.smode = 0 then 0 else e.2 / scaleLen t.smode)
  let keys := (lanes.map fun x => blockOf x.1).eraseDups
  let rs := keys.map fun k => storeBlock el t h (lanes.filter fun x => blockOf x.1 == k)
  ((rs.map Prod.fst).flatten, rs.foldl (fun f x => f ||| x.2) 0#8)

/-- The written bits and bytes of one line. -/
def pieceOf (ws : List BitWrite) (line : Nat) : OutPiece :=
  let lo := 2048 * line
  let part (a w v : Nat) : Nat := if a ≥ lo then nbits v 0 w * 2 ^ (a - lo) else nbits v 0 w / 2 ^ (lo - a)
  let r := ws.foldl (fun (x : LineMask × LineMask) b =>
    if b.1 + b.2.1 ≤ lo || decide (lo + 2048 ≤ b.1) then x
    else
      let m := BitVec.ofNat 2048 (part b.1 b.2.1 (2 ^ b.2.1 - 1))
      (x.1 ||| m, (x.2 &&& ~~~m) ||| BitVec.ofNat 2048 (part b.1 b.2.1 b.2.2))) (0, 0)
  { line := line, mask := r.1, data := leBytes 256 r.2.toNat, poison := 0 }

/-- A group of a tensor handed to the Outlet as lines (R271, R846): its lines and its flags. -/
def storeLinesOf (tabs : Tables) (t : Tensor) (pair : Bool) (g : Nat) (h : StoreHow) (mask : BitVec 256)
    (vals : List (BitVec 32)) : List OutPiece × BitVec 8 :=
  let el := ((fmtOf tabs.ptab t.fmt).map (·.elem)).getD (.flt fp32)
  let r := storeGroup el t pair g h mask vals
  ((segLines el.bits t (groupSegs pair t g)).map (pieceOf r.1), r.2)

/-- FORMAT_UNDEFINED of a store's target (R129, R171, R180). -/
def storeFmtErr (tabs : Tables) (t : Tensor) (rnd : Nat) : Option (Nat × List (BitVec 64)) :=
  match fmtErr tabs t.fmt t.smode rnd false with
  | some e => some e
  | none =>
    if rnd = 3 || decide (0x40 ≤ t.fmt) then
      some (fcFormat, [BitVec.ofNat 64 t.fmt, BitVec.ofNat 64 t.smode, BitVec.ofNat 64 rnd])
    else none

/-- The faults of a VST in the order of R360 and R295. [DEDUCED: log 78.] -/
def vstErr (rm : Room) (tabs : Tables) (r : RoomId) (lrooms : Nat) (c : BitVec 128) :
    Option (Nat × List (BitVec 64)) :=
  let idx := field c 32 11
  let d := rm.descOf idx
  let t := tensorOf d
  let g := groupNo rm c
  let bits := bitsOf tabs t.fmt
  let here := decide (g < groupCount t)
  firstErr [
    rm.descErrs tabs (outDescs idx d) c,
    if here && (rm.routeFor d).tgt != 3 then rangeErr idx (segRanges bits t (groupSegs false t g)) else none,
    storeFmtErr tabs t (field c 84 2),
    if layoutBBad 2 c || !here || (t.saxis && t.smode != 0) then some (fcVecField, cmdWords c) else none,
    layoutErr idx g (segLines bits t (groupSegs false t g)).length,
    if t.rte then routeErr r lrooms t.rdesc (rm.descOf t.rdesc) else none]

/-- VST (R269, R271 to R273, R346, R347). -/
def vst (r : RoomId) (c : QCmd) (s : State) : State :=
  let rm := s.room r
  let at0 := s.cyc r
  let w := c.word
  let idx := field w 32 11
  let d := rm.descOf idx
  let t := tensorOf d
  let rt := rm.routeFor d
  let g := groupNo rm w
  let ln := timedLines rm s.tabs idx w false g
  let dur := (if field w 84 2 = 2 then 16 else 10) + ln - 1
  if !(s.vecReady r c 2) then s
  else
    let started := s.beginVec r c ln (storeDur r rt dur)
    if !c.pred then started.skipEcc r w ((outDescs idx d).map Prod.fst)
    else match vstErr rm s.tabs r s.job.lrooms w with
      | some e => started.vecOrDesc r w e
      | none =>
        let sh : StoreHow :=
          { rnd := field w 84 2, sat := bit w 86, purpose := w.extractLsb' 64 16, roomkey := bit w 63,
            iter := rm.scOf (field w 80 4), seed := s.job.seed, lroom := r.val }
        let x := storeLinesOf s.tabs t false g sh (rm.vmOf (field w 60 3)) (regLanes rm.vec.regs (field w 48 6))
        let s := (started.modRoom r fun rm => (rm.countIssue ln).setFmt x.2 (tagOf w)).smokeVec r w [field w 48 6] none
        s.storeLines r w at0 rt (at0 + dur - 6) x.1

/-! ## Hatch access (R274 to R276) -/

/-- HATCH_OWNER of a slot (R275). -/
def hatchErr (rm : Room) (slot : Nat) : Nat × List (BitVec 64) :=
  (fcHatchOwner, [BitVec.ofNat 64 slot, rm.hatch.st.zeroExtend 64])

/-- The 128 values of a slot row. -/
def Hatch.rowOf (h : Hatch) (slot row : Nat) : List (BitVec 32) := sgetRange h.mem (16384 * slot + 128 * row) 128

/-- The lanes of a Hatch access: a row pair, or one row and zeros (R276). -/
def Hatch.lanes (h : Hatch) (slot hrow : Nat) (single : Bool) : List (BitVec 32) :=
  if single then h.rowOf slot hrow ++ List.replicate 128 0 else h.rowOf slot (2 * hrow) ++ h.rowOf slot (2 * hrow + 1)

/-- A layout-B command that names no descriptor: its checks in s, then its effect. -/
def hatchCmd (op dur : Nat) (r : RoomId) (c : QCmd) (states : List Nat) (eff : State → State) (s : State) : State :=
  let w := c.word
  if !(s.vecReady r c op) then s
  else
    let started := s.beginVec r c 1 dur
    let slot := field w 43 2
    if !c.pred then started
    else if layoutBBad op w then started.vecFault r w (fcVecField, cmdWords w)
    else if !(states.contains ((s.room r).hatch.slotAt slot (s.cyc r))) then started.vecFault r w (hatchErr (s.room r) slot)
    else eff started

/-- VHLD: the slot must be VECTOR in s. -/
def vhld (r : RoomId) (c : QCmd) (s : State) : State :=
  let w := c.word
  hatchCmd 4 2 r c [3] (fun s =>
    let rm := s.room r
    (s.modRoom r (·.countIssue 1)).writeReg r w 2 (field w 48 6) (rm.vmOf (field w 60 3))
      (rm.hatch.lanes (field w 43 2) (field w 88 7) (bit w 45))) s

/-- VHST: the slot is checked in the gc of the write, s + 2. -/
def vhst (r : RoomId) (c : QCmd) (s : State) : State :=
  let w := c.word
  hatchCmd 5 2 r c [0, 1, 2, 3] (fun s =>
    let rm := s.room r
    let vals := regLanes rm.vec.regs (field w 48 6)
    let row := if bit w 45 then field w 88 7 else 2 * field w 88 7
    (s.smokeVec r w [field w 48 6] none).addPend r (s.cyc r + 2) w
      (.hatchVec (field w 43 2) row (rm.vmOf (field w 60 3)) (if bit w 45 then vals.take 128 else vals))) s

/-- The write of a VHST: into a slot that is VECTOR or FREE (R275). -/
def hatchStore (r : RoomId) (c : BitVec 128) (slot row : Nat) (mask : BitVec 256) (vals : List (BitVec 32)) (s : State) :
    State :=
  let rm := s.room r
  if [0, 3].contains (rm.hatch.slotAt slot (s.cyc r)) then
    let base := 16384 * slot + 128 * row
    let mem := (indexed vals).foldl (fun m p => if bit mask p.1 then sput m (base + p.1) p.2 else m) rm.hatch.mem
    s.setRoom r { (rm.countIssue 1) with hatch := { rm.hatch with mem := mem } }
  else s.vecFault r c (hatchErr rm slot)

/-- VHREL: the slot becomes FREE in the next gc (R274, R275). -/
def vhrel (r : RoomId) (c : QCmd) (s : State) : State :=
  let slot := field c.word 43 2
  hatchCmd 6 1 r c [0, 3] (fun s =>
    let free := (s.room r).hatch.slotAt slot (s.cyc r) == 0
    let s := s.modRoom r (·.countIssue 1)
    if free then s else s.addPend r (s.cyc r + 1) c.word (.hatchFree slot)) s

/-! ## VRNG (R285) -/

/-- The faults of a VRNG. -/
def vrngErr (rm : Room) (tabs : Tables) (c : BitVec 128) : Option (Nat × List (BitVec 64)) :=
  firstErr [
    rm.descErrs tabs [(field c 32 11, 1)] c,
    if layoutBBad 0x40 c || field c 48 6 % 4 != 0 || decide (field c 48 6 > 60) then some (fcVecField, cmdWords c)
    else none]

/-- VRNG. -/
def vrng (r : RoomId) (c : QCmd) (s : State) : State :=
  let rm := s.room r
  let w := c.word
  let idx := field w 32 11
  if !(s.vecReady r c 0x40) then s
  else
    let started := s.beginVec r c 1 10
    if !c.pred then started.skipEcc r w [idx]
    else match vrngErr rm s.tabs w with
      | some e => started.vecOrDesc r w e
      | none =>
        let t := tensorOf (rm.descOf idx)
        let e0 := 1024 * groupNo rm w
        let word (j i : Nat) : BitVec 32 :=
          let x := randomWord s.job.seed ((e0 + 4 * i + j) % 2 ^ 48) (w.extractLsb' 64 16) t.tid r.val (bit w 63)
            (rm.scOf (field w 80 4))
          if bit w 87 then (uniformVal x).toF32 else x
        let mask := rm.vmOf (field w 60 3)
        [0, 1, 2, 3].foldl (fun s j => s.writeReg r w 10 (field w 48 6 + j) mask ((List.range 256).map (word j)))
          (started.modRoom r (·.countIssue 1))

/-- A vector command with a reserved OPCODE (R845): VEC_FIELD, OCC 1, DUR 1. -/
def vecReserved (r : RoomId) (c : QCmd) (s : State) : State :=
  let op := opcodeOf c.word
  let known := [1, 2, 4, 5, 6, 8, 0x30, 0x31, 0x34, 0x35, 0x36, 0x37, 0x38, 0x3C, 0x40].contains op ||
    (decide (0x10 ≤ op) && decide (op ≤ 0x19)) || (decide (0x20 ≤ op) && decide (op ≤ 0x2A)) ||
    (decide (0x2C ≤ op) && decide (op ≤ 0x2E))
  if known || !(s.vecReady r c op) then s
  else
    let s := s.beginVec r c 1 1
    if c.pred then s.vecFault r c.word (fcVecField, cmdWords c.word) else s

/-! ## The commands -/

def execVld (r : RoomId) (c : QCmd) (s : State) : Host.Outcome State Fault Refusal := s.done (vld r c s)
def execVst (r : RoomId) (c : QCmd) (s : State) : Host.Outcome State Fault Refusal := s.done (vst r c s)
def execVhld (r : RoomId) (c : QCmd) (s : State) : Host.Outcome State Fault Refusal := s.done (vhld r c s)
def execVhst (r : RoomId) (c : QCmd) (s : State) : Host.Outcome State Fault Refusal := s.done (vhst r c s)
def execVhrel (r : RoomId) (c : QCmd) (s : State) : Host.Outcome State Fault Refusal := s.done (vhrel r c s)
def execVrng (r : RoomId) (c : QCmd) (s : State) : Host.Outcome State Fault Refusal := s.done (vrng r c s)

/-- VADD, and the vector commands with a reserved OPCODE (R845). -/
def execVadd (r : RoomId) (c : QCmd) (s : State) : Host.Outcome State Fault Refusal :=
  s.done (if opcodeOf c.word = 0x10 then layoutA 0x10 r c s else vecReserved r c s)

def execVsub (r : RoomId) (c : QCmd) (s : State) : Host.Outcome State Fault Refusal := s.done (layoutA 0x11 r c s)
def execVmul (r : RoomId) (c : QCmd) (s : State) : Host.Outcome State Fault Refusal := s.done (layoutA 0x12 r c s)
def execVfma (r : RoomId) (c : QCmd) (s : State) : Host.Outcome State Fault Refusal := s.done (layoutA 0x13 r c s)
def execVmax (r : RoomId) (c : QCmd) (s : State) : Host.Outcome State Fault Refusal := s.done (layoutA 0x14 r c s)
def execVmin (r : RoomId) (c : QCmd) (s : State) : Host.Outcome State Fault Refusal := s.done (layoutA 0x15 r c s)
def execVabs (r : RoomId) (c : QCmd) (s : State) : Host.Outcome State Fault Refusal := s.done (layoutA 0x16 r c s)
def execVneg (r : RoomId) (c : QCmd) (s : State) : Host.Outcome State Fault Refusal := s.done (layoutA 0x17 r c s)
def execVcmp (r : RoomId) (c : QCmd) (s : State) : Host.Outcome State Fault Refusal := s.done (layoutA 0x18 r c s)
def execVsel (r : RoomId) (c : QCmd) (s : State) : Host.Outcome State Fault Refusal := s.done (layoutA 0x19 r c s)
def execViadd (r : RoomId) (c : QCmd) (s : State) : Host.Outcome State Fault Refusal := s.done (layoutA 0x20 r c s)
def execVisub (r : RoomId) (c : QCmd) (s : State) : Host.Outcome State Fault Refusal := s.done (layoutA 0x21 r c s)
def execVimul (r : RoomId) (c : QCmd) (s : State) : Host.Outcome State Fault Refusal := s.done (layoutA 0x22 r c s)
def execVand (r : RoomId) (c : QCmd) (s : State) : Host.Outcome State Fault Refusal := s.done (layoutA 0x23 r c s)
def execVor (r : RoomId) (c : QCmd) (s : State) : Host.Outcome State Fault Refusal := s.done (layoutA 0x24 r c s)
def execVxor (r : RoomId) (c : QCmd) (s : State) : Host.Outcome State Fault Refusal := s.done (layoutA 0x25 r c s)
def execVshl (r : RoomId) (c : QCmd) (s : State) : Host.Outcome State Fault Refusal := s.done (layoutA 0x26 r c s)
def execVshr (r : RoomId) (c : QCmd) (s : State) : Host.Outcome State Fault Refusal := s.done (layoutA 0x27 r c s)
def execVsar (r : RoomId) (c : QCmd) (s : State) : Host.Outcome State Fault Refusal := s.done (layoutA 0x28 r c s)
def execVimax (r : RoomId) (c : QCmd) (s : State) : Host.Outcome State Fault Refusal := s.done (layoutA 0x29 r c s)
def execVimin (r : RoomId) (c : QCmd) (s : State) : Host.Outcome State Fault Refusal := s.done (layoutA 0x2A r c s)
def execVrnd (r : RoomId) (c : QCmd) (s : State) : Host.Outcome State Fault Refusal := s.done (layoutA 0x2C r c s)
def execVf2i (r : RoomId) (c : QCmd) (s : State) : Host.Outcome State Fault Refusal := s.done (layoutA 0x2D r c s)
def execVi2f (r : RoomId) (c : QCmd) (s : State) : Host.Outcome State Fault Refusal := s.done (layoutA 0x2E r c s)
def execVrot (r : RoomId) (c : QCmd) (s : State) : Host.Outcome State Fault Refusal := s.done (layoutA 0x30 r c s)
def execVbcast (r : RoomId) (c : QCmd) (s : State) : Host.Outcome State Fault Refusal := s.done (layoutA 0x31 r c s)
def execVrsum (r : RoomId) (c : QCmd) (s : State) : Host.Outcome State Fault Refusal := s.done (layoutA 0x34 r c s)
def execVrmax (r : RoomId) (c : QCmd) (s : State) : Host.Outcome State Fault Refusal := s.done (layoutA 0x35 r c s)
def execVrmin (r : RoomId) (c : QCmd) (s : State) : Host.Outcome State Fault Refusal := s.done (layoutA 0x36 r c s)
def execVscan (r : RoomId) (c : QCmd) (s : State) : Host.Outcome State Fault Refusal := s.done (layoutA 0x37 r c s)
def execVcrv (r : RoomId) (c : QCmd) (s : State) : Host.Outcome State Fault Refusal := s.done (layoutA 0x3C r c s)

end Sys2Proof.Machine
end

