-- ==== Sys2Proof/Machine/Mailslot.lean ====
section
/-! DEFINITION. Mailslots, handlers, DRAIN and credit returns (chapter 11). -/

namespace Sys2Proof.Machine

/-! ## Records (R541 to R545) -/

def msgSeq (h : BitVec 128) : Nat := field h 0 16
def msgHidx (h : BitVec 128) : Nat := field h 16 4
def msgPlen (h : BitVec 128) : Nat := field h 20 9
def msgSrank (h : BitVec 128) : BitVec 12 := h.extractLsb' 32 12
def msgSroom (h : BitVec 128) : BitVec 7 := h.extractLsb' 44 7
def msgStag (h : BitVec 128) : BitVec 16 := h.extractLsb' 80 16

def Comm.ring (cm : Comm) (n : Nat) : Option Ring := cm.rings.toList.getD n none

def Comm.setRing (cm : Comm) (n : Nat) (g : Ring) : Comm :=
  if h : n < 4 then { cm with rings := cm.rings.set n (some g) } else cm

/-- RU of a ring (R539). -/
def Ring.ru (g : Ring) : Nat := 16 * g.nlines

/-- Does a record come from the ring's declared sender and channel (R544)? -/
def Ring.fromSender (g : Ring) (h : BitVec 128) : Bool :=
  g.srank == msgSrank h && g.sroom == msgSroom h && g.smc == bit h 30 && (!g.smc || g.smch == h.extractLsb' 51 3)

/-- The placement of a record of `need` units (R542): the ring with its pointers moved, and the unit at which the record
begins; none when it would not fit (R543). [DEDUCED: log 68.] -/
def Ring.place (g : Ring) (h : BitVec 128) (payload : Bytes) (poison : Bool) (readyAt : Nat) : Option (Nat × Ring) :=
  let need := 1 + cdiv (msgPlen h) 16
  let tail := g.ru - g.wptr
  let rcd : MsgRec :=
    { hdr := h, pad := false, units := need, payload := payload, poison := poison, readyAt := readyAt }
  if need ≤ tail then
    if g.used + need > g.ru then none
    else some (g.wptr, { g with
      wptr := (g.wptr + need) % g.ru, used := g.used + need, expSeq := g.expSeq + 1, recs := g.recs ++ [rcd] })
  else
    if g.used + need + tail > g.ru then none
    else
      let pad : MsgRec :=
        { hdr := 1#128 <<< 29, pad := true, units := tail, payload := [], poison := false, readyAt := readyAt }
      some (0, { g with
        wptr := need % g.ru, used := g.used + need + tail, expSeq := g.expSeq + 1, recs := g.recs ++ [pad, rcd] })

/-- PAD records at the head are consumed (R545, R557): the ring and the units. [DESIGN CHOICE: log 82.] -/
def Ring.dropPads (g : Ring) : List MsgRec → Nat × Ring
  | [] => (0, { g with recs := [] })
  | m :: t =>
    if m.pad then
      let x := ({ g with rptr := (g.rptr + m.units) % g.ru, used := g.used - m.units } : Ring).dropPads t
      (m.units + x.1, x.2)
    else (0, { g with recs := m :: t })

/-- Records presentable at the message port (R545). -/
def Ring.present (g : Ring) (period : Nat) : Nat :=
  ((g.recs.filter (fun m => !m.pad)).takeWhile (fun m => decide (m.readyAt ≤ period))).length

/-! ## Handlers (R553, R554, R566) -/

/-- The FP32 words of a payload; of a poisoned one, NaN. -/
def msgWords (m : MsgRec) (off step n : Nat) : List (BitVec 32) :=
  (List.range n).map fun i => if m.poison then canonNan else BitVec.ofNat 32 (getLE m.payload (off + step * i) 4)

/-- Does a record break the payload rule of its handler (R553, R554)? -/
def payloadBad (h : BitVec 128) (m : MsgRec) : Bool :=
  let plen := msgPlen m.hdr
  match field h 0 3 with
  | 1 => plen % 4 != 0 || decide (plen > 4 * (256 - field h 16 8))
  | 3 => plen % 8 != 0 ||
      (List.range (plen / 8)).any fun i => decide (getLE m.payload (8 * i) 4 ≥ 256 * field h 24 7)
  | 4 => decide (plen < 4)
  | _ => false

/-- A register result of a handler, due 4 gc after its slot. -/
def handlerReg (r : RoomId) (c : BitVec 128) (start reg : Nat) (adds : List (Nat × BitVec 32)) (s : State) : State :=
  let old := regLanes (s.room r).vec.regs reg
  let x := adds.foldl (fun (x : List (BitVec 32) × BitVec 256) a =>
    (x.1.set a.1 (f32add (x.1.getD a.1 0) a.2), x.2 ||| (1#256 <<< a.1))) (old, 0#256)
  let due := s.cyc r + 4
  (s.smokeVec r c [reg] (some (reg, due))).modRoom r fun rm => { rm with
    pend := rm.pend ++ [{ due := due, start := start, word := c, eff := .vreg reg x.2 x.1 }] }

/-- The effect of a record whose payload is sound. -/
def runHandler (r : RoomId) (c : BitVec 128) (start : Nat) (h : BitVec 128) (m : MsgRec) (s : State) : State :=
  let plen := msgPlen m.hdr
  match field h 0 3 with
  | 1 =>
    let ws := msgWords m 0 4 (plen / 4)
    handlerReg r c start (field h 8 6) ((indexed ws).map fun p => (field h 16 8 + p.1, p.2)) s
  | 2 =>
    s.galWrite r c start (field h 32 12 + msgSeq m.hdr % (max (field h 48 9) 1)) (s.cyc r + 3) fullMask
      (slice m.payload 0 256) (if m.poison then BitVec.allOnes 32 else 0)
  | 3 =>
    let ks := (List.range (plen / 8)).map fun i => getLE m.payload (8 * i) 4
    let adds := ks.zip (msgWords m 4 8 (plen / 8))
    ((ks.map (· / 256)).eraseDups).foldl (fun s g =>
      handlerReg r c start (field h 8 6 + g) ((adds.filter fun a => a.1 / 256 == g).map fun a => (a.1 % 256, a.2)) s) s
  | 4 =>
    s.addPend r (s.cyc r + 1) c (.linc (field h 64 6) (BitVec.ofNat 8 (getLE m.payload 0 1))
      (BitVec.ofNat 16 (getLE m.payload 2 2)) (s.srcOf 0 r.val (tagOf c) 0))
  | _ => s

/-- A message fault: ROOM_LATCH_STATUS.MSG and the report (R571, R575). -/
def State.msgFault (s : State) (r : RoomId) (code : Nat) (tag : BitVec 16) (body : List (BitVec 64)) : State :=
  (s.modRoom r fun rm => { rm with latch := rm.latch.setStatus 5 none tag }).raiseBare r code tag body

/-- One record slot of a DRAIN (R556 to R558). [DESIGN CHOICE: log 82.] -/
def drainSlot (r : RoomId) (c : BitVec 128) (start : Nat) (s : State) : State :=
  let rm := s.room r
  let mslot := field c 32 2
  match rm.comm.ring mslot with
  | none => s
  | some g0 =>
    let x := g0.dropPads g0.recs
    let mine (p : Pend) : Bool := decide (p.word = c) && p.start == start
    let give (n : Nat) (s : State) : State := s.modRoom r fun rm => { rm with
      pend := rm.pend.map fun p => match p.eff with
        | .credits k u => if mine p then { p with eff := .credits k (u + n) } else p
        | _ => p }
    match x.2.recs with
    | [] =>
      give x.1 (s.setRoom r { rm with
        comm := rm.comm.setRing mslot x.2
        pend := rm.pend.filter fun p => !(mine p && (match p.eff with | .drainSlot .. => true | _ => false)) })
    | m :: t =>
      if m.readyAt > (s.wing (wingOf r)).periods then
        give x.1 (s.setRoom r { rm with
          comm := rm.comm.setRing mslot x.2
          pend := rm.pend.filter fun p => !(mine p && (match p.eff with | .drainSlot .. => true | _ => false)) })
      else
        let g := { x.2 with
          rptr := (x.2.rptr + m.units) % x.2.ru, used := x.2.used - m.units, processed := satAdd x.2.processed 1 }
        let y := g.dropPads t
        let s := give (x.1 + m.units + y.1) (s.setRoom r { rm with comm := rm.comm.setRing mslot y.2 })
        let body := [BitVec.ofNat 64 mslot, BitVec.ofNat 64 (msgSeq m.hdr), (msgStag m.hdr).zeroExtend 64]
        match rm.comm.handlers[msgHidx m.hdr]? with
        | none => s.msgFault r fcMsgHandler (tagOf c) body
        | some h => if payloadBad h m then s.msgFault r fcMsgPayload (tagOf c) body else runHandler r c start h m s

/-- DRAIN (R555, R556). [DESIGN CHOICE: log 82.] -/
def drain (r : RoomId) (c : QCmd) (s : State) : State :=
  let w := c.word
  let at0 := s.cyc r
  let n := field w 40 6 + 1
  if !(s.vecReady r c 0x38) then s
  else
    let started := s.beginVec r c (4 * n) (4 * n + 4)
    if !c.pred then started
    else if field w 34 6 != 0 || field w 46 82 != 0 || ((s.room r).comm.ring (field w 32 2)).isNone then
      started.cmdFault r w fcDrainField (cmdWords w)
    else
      let s := started.modRoom r (·.countIssue (4 * n))
      let s := s.addPend r (at0 + 4 * n + 4) w (.credits (field w 32 2) 0)
      let s := (List.range n).foldl (fun s i => if i = 0 then s else s.addPend r (at0 + 4 * i) w (.drainSlot c i)) s
      drainSlot r w at0 s

/-! ## Credits (R551) -/

/-- Credit that reaches its sender: CRED of every channel destination that names the Mailslot (R551). -/
def Comm.credit (cm : Comm) (local_ : Bool) (rank : BitVec 12) (room : BitVec 7) (mslot units : Nat) : Comm :=
  { cm with sends := cm.sends.map fun ch =>
      if ch.mslot = mslot && ((ch.tgt == 0) == local_) then
        { ch with dests := ch.dests.map fun d =>
            if d.room = room && (local_ || d.rank == rank) then { d with cred := d.cred + units } else d }
      else ch }

/-- The end of a DRAIN: the units consumed go back to the Mailslot's sender (R551, R557). [DEDUCED: log 68.] -/
def returnCredits (r : RoomId) (c : BitVec 128) (mslot units : Nat) (s : State) : State :=
  let rm := s.room r
  match rm.comm.ring mslot with
  | none => s
  | some g =>
    if units = 0 then s
    else if g.srank = s.ownRank && g.sroom.toNat == r.val && !g.smc then
      s.setRoom r { rm with comm := rm.comm.credit true g.srank g.sroom mslot units }
    else
      s.setRoom r { rm with out := { rm.out with credits := rm.out.credits ++ [
        { kind := .credit, tgt := 2, flag := false, copies := [(g.srank, g.sroom)], mch := 0, addr := mslot, data := [],
          mask := 0, poison := 0, tag := tagOf c, hdr := 0, lat := BitVec.ofNat 64 units }] } }

/-- CREDIT_RETURN_ARRIVAL (R551): the credit counts in the gc of its arrival; where it ends a wait, its retried bit
charges the freeze (R356, R550). -/
def creditReturnArrival (r : RoomId) (srank : BitVec 12) (sroom : BitVec 7) (mslot : BitVec 2) (units : BitVec 13)
    (retried : Bool) (s : State) : State :=
  let waits := (s.room r).frz.any fun f => match f with | .credit .. => true | _ => false
  let mine (k : Pkt) : Bool :=
    pktKind k.hdr == kCredit && pktSrank k.hdr == srank && pktSroom k.hdr == sroom && (pktDroom k.hdr).toNat == r.val &&
      nbits (pktArg k.hdr).toNat 0 13 == units.toNat && nbits (pktArg k.hdr).toNat 13 2 == mslot.toNat
  let s := s.modPorch (homePorch r) fun x => { x with ejq := delFirst mine x.ejq }
  let s := s.modRoom r fun rm => { rm with comm := rm.comm.credit false srank sroom mslot.toNat units.toNat }
  if waits then s.modWing (wingOf r) fun g => { g with frzBits := some (if retried then 1 else 0) } else s

/-- DRAIN. -/
def execDrain (r : RoomId) (c : QCmd) (s : State) : Host.Outcome State Fault Refusal := s.done (drain r c s)

/-- CREDIT_RETURN_ARRIVAL. -/
def execCreditReturnArrival (r : RoomId) (srank : BitVec 12) (sroom : BitVec 7) (mslot : BitVec 2) (units : BitVec 13)
    (retried : Bool) (s : State) : Host.Outcome State Fault Refusal :=
  s.done (creditReturnArrival r srank sroom mslot units retried s)

end Sys2Proof.Machine
end

