-- ==== Sys2Proof/Machine/Pantry.lean ====
section
/-! DEFINITION. Pantry control commands, the Arrivals port, write-back reads and the scrubber (chapter 09). -/

namespace Sys2Proof.Machine

/-! ## Pantry control (R429, R430) -/

/-- May a Pantry control command start in this gc? -/
def State.panReady (s : State) (r : RoomId) (c : QCmd) : Bool :=
  s.atHead r 2 c && decide ((s.room r).panFree ≤ s.cyc r)

def State.beginPan (s : State) (r : RoomId) (c : QCmd) (dur : Nat) : State :=
  (s.begin r 2 c dur 0).modRoom r fun rm => { rm with panFree := s.cyc r + 1 }

/-- PAN_FIELD of a command (R462). -/
def panBad (op : Nat) (c : BitVec 128) : Bool :=
  field c 45 3 != 0 || field c 60 4 != 0 || field c 78 50 != 0 ||
    (if op = 4 then field c 76 2 == 3 || decide (field c 48 12 + field c 64 12 > 3071) else field c 32 12 == 0)

/-- A Pantry control command: its start, its fault, its effect. -/
def panCmd (op dur : Nat) (r : RoomId) (c : QCmd) (eff : State → State) (s : State) : State :=
  if !(s.panReady r c) || !(opcodeOf c.word == op) then s
  else
    let s := s.beginPan r c dur
    if !c.pred then s
    else if panBad op c.word then s.cmdFault r c.word fcPanField (cmdWords c.word)
    else eff s

/-- The banks a command selects. -/
def banksOf (c : BitVec 128) : BitVec 12 := c.extractLsb' 32 12

/-- POWN: ownership changes from the gc after the start. [DESIGN CHOICE: log 70.] -/
def pown (r : RoomId) (c : QCmd) (s : State) : State :=
  panCmd 1 1 r c (fun s => s.addPend r (s.cyc r + 1) c.word (.pown (banksOf c.word) (bit c.word 44))) s

/-- The lines of a bank lose their contents and take tag NONE (R423, R425, R430). -/
def Room.wipeBank (rm : Room) (b : Nat) : Room :=
  let lines := (rm.pan.tags.map (·.1)).filter (fun l => decide (bankOf l = b))
  let rm := lines.foldl (fun rm l => rm.setTag l 0) rm
  { rm with pan := { rm.pan with
      mem := sclear rm.pan.mem (0x10000 * b) (0x10000 * (b + 1))
      bits := sclear rm.pan.bits (256 * b) (256 * (b + 1))
      fetched := sclear rm.pan.fetched (256 * b) (256 * (b + 1))
      due := sclear rm.pan.due (8192 * b) (8192 * (b + 1))
      sbe := sclear rm.pan.sbe (8192 * b) (8192 * (b + 1)) } }

/-- PGATE: each selected bank is gated from the start gc and loses its contents. [DESIGN CHOICE: log 70.] -/
def pgate (r : RoomId) (c : QCmd) (s : State) : State :=
  let m := banksOf c.word
  panCmd 2 1 r c (fun s => s.modRoom r fun rm =>
    let rm := (indicesOf 12 (bit m)).foldl Room.wipeBank rm
    { rm with pan := { rm.pan with gated := rm.pan.gated ||| m, waking := rm.pan.waking &&& ~~~m } }) s

/-- PWAKE: each selected gated bank wakes, and is usable 300 advancing gc later (R115). [DESIGN CHOICE: log 70.] -/
def pwake (r : RoomId) (c : QCmd) (s : State) : State :=
  panCmd 3 300 r c (fun s =>
    let at0 := s.cyc r
    s.modRoom r fun rm =>
      let m := banksOf c.word &&& rm.pan.gated
      { rm with pan := { rm.pan with
          gated := rm.pan.gated &&& ~~~m
          waking := rm.pan.waking ||| m
          wakeAt := Vector.ofFn fun (b : Fin 12) => if bit m b.val then at0 + 300 else rm.pan.wakeAt[b.val] } }) s

/-- PTAGCLR: the lines take tag TMODE at the end of the start gc. [DESIGN CHOICE: log 70.] -/
def ptagclr (r : RoomId) (c : QCmd) (s : State) : State :=
  let w := c.word
  let t := match field w 76 2 with
    | 0 => 1
    | 1 => 0
    | _ => 3
  panCmd 4 1 r c (fun s => s.addPend r (s.cyc r + 1) w (.ptag (field w 48 12) (field w 64 12 + 1) t)) s

/-- A Pantry control command with a reserved OPCODE (R845). -/
def panReserved (r : RoomId) (c : QCmd) (s : State) : State :=
  if !(s.panReady r c) || [1, 2, 3, 4].contains (opcodeOf c.word) then s
  else
    let s := s.beginPan r c 1
    if c.pred then s.cmdFault r c.word fcPanField (cmdWords c.word) else s

/-- PANTRY_BANK_USABLE (R115): the bank's 300 advancing gc have passed. -/
def pantryBankUsable (r : RoomId) (bank : Fin 12) (s : State) : State :=
  let rm := s.room r
  if inMask rm.pan.waking bank.val && decide (rm.pan.wakeAt[bank.val] ≤ s.cyc r) then
    s.setRoom r { rm with pan := { rm.pan with waking := rm.pan.waking &&& ~~~(1#12 <<< bank.val) } }
  else s

/-! ## The Arrivals port (R419, R420) -/

/-- The banks that the Gallery port uses in the present gc: those the sender of the step names, and those of the accesses
scheduled in it. -/
def State.busyBanks (s : State) (r : RoomId) (busy : BitVec 12) : BitVec 12 :=
  if s.advancing (wingOf r) then
    ((s.room r).pan.uses.filter fun u => u.cyc == s.cyc r).foldl (fun m u => m ||| (1#12 <<< u.bank)) busy
  else busy

/-- May the port make an access in the present period (R419)? -/
def State.portFree (s : State) (r : RoomId) : Bool :=
  let g := s.wing (wingOf r)
  (s.room r).on && decide ((s.room r).pan.portAt ≤ g.periods)

/-- A line access takes the port for `n` periods. [DESIGN CHOICE: log 85.] -/
def State.usePort (s : State) (r : RoomId) (n : Nat) (read : Bool) : State :=
  let p := (s.wing (wingOf r)).periods
  s.modRoom r fun rm => { rm with pan := { rm.pan with portAt := p + n, readTurn := !read } }

/-- Which write-back request or SCATTER a read serves. -/
inductive ReadFor
  | put (id : Nat)
  | scatter (cellar : Nat)
  deriving DecidableEq, Repr, Inhabited

/-- The next line that each write-back request and a SCATTER of the Room has to read: each reads its lines in order. -/
def State.readLines (s : State) (r : RoomId) : List (Nat × ReadFor) :=
  let puts := (s.mem.reqs.filter fun q => q.room == r && !q.fetch && decide (q.phase = .reading)).flatMap fun q =>
    (q.left.take 1).map fun l => (l, ReadFor.put q.id)
  let n := (wingOf r).val
  let sc := match s.mem.cellars[(wingOf r).val].gs.cur with
    | some u => if u.op.room = r && u.op.op == 0x0A then
        (u.rows.take 1).map fun x => (x.2, ReadFor.scatter n) else []
    | none => []
  puts ++ sc

/-- The line the port would read next: FULL, and in a bank it may access (R420, R425). -/
def State.readCand (s : State) (r : RoomId) (busy : BitVec 12) : Option (Nat × ReadFor) :=
  let rm := s.room r
  let b := s.busyBanks r busy
  (s.readLines r).find? fun x =>
    (sget rm.pan.tags x.1).toNat == 3 && !(inMask b (bankOf x.1)) && !(rm.bankDown (bankOf x.1) (s.cyc r))

/-- The banks an arrival needs. -/
def Room.arrBanks (rm : Room) (a : Arr) : List Nat :=
  match a.kind with
  | .inc .. => []
  | .msg m h =>
    match rm.comm.ring m with
    | some g =>
      match g.place h a.data false 0 with
      | some x => [bankOf (g.base + x.1 / 16), bankOf (g.base + (x.1 + cdiv (msgPlen h) 16) / 16)]
      | none => []
    | none => []
  | _ => [bankOf a.line]

/-- The oldest arrival whose banks the port may access (R420). -/
def State.arrCand (s : State) (r : RoomId) (busy : BitVec 12) : Option Arr :=
  let rm := s.room r
  let b := s.busyBanks r busy
  rm.pan.buf.find? fun a => (rm.arrBanks a).all fun k => !(inMask b k)

/-- The arrival that the port takes in this period, when it is free and it is not a read's turn. -/
def State.takes (s : State) (r : RoomId) (busy : BitVec 12) : Option Arr :=
  if !(s.portFree r) || ((s.room r).pan.readTurn && (s.readCand r busy).isSome) then none else s.arrCand r busy

/-- An arrival leaves the buffer. -/
def Room.dropArr (rm : Room) (a : Arr) : Room :=
  { rm with pan := ({ rm.pan with buf := delFirst (fun x => decide (x = a)) rm.pan.buf }).refill }

/-- The bits of an arrival charge the freeze whose condition it clears (R356, R428). -/
def chargeOf (retried refresh : Bool) : BitVec 2 := BitVec.ofNat 2 (b2n retried + 2 * b2n refresh)

/-- A line has become FULL: the read conditions on it clear, and the arrival's bits are those of the freeze (R356). -/
def State.clearReads (s : State) (r : RoomId) (line : Nat) (bits : BitVec 2) : State :=
  let waits (f : Frz) : Bool := match f with
    | .line _ l false => l == line
    | _ => false
  if (s.room r).frz.any waits then
    (s.modRoom r fun rm => { rm with frz := rm.frz.filter fun f => !waits f }).modWing (wingOf r) fun g =>
      { g with frzBits := some bits, held := true }
  else s

/-- A report about an arrival (R424, R425, R431, R455). -/
def State.arrFault (s : State) (r : RoomId) (a : Arr) (code : Nat) : State :=
  let p := if code = fcPanOwner then 0 else if code = fcPanGated then 2 else 3
  let tag := a.src.extractLsb' 24 16
  let first := if code = fcPanGated then bankOf a.line else a.line
  let s := s.modRoom r fun rm => { rm with pan := rm.pan.setStatus p tag a.line }
  let s := if code = fcPanOwner then s.smokeRep (some r) 4 0 0 (a.line + 0x1000 * field a.src 0 4) else s
  s.raiseBare r code tag [BitVec.ofNat 64 first, a.src]

/-- Is the arrival a Dumbwaiter return (R425)? -/
def Arr.isDw (a : Arr) : Bool := match a.kind with
  | .dw _ => true
  | _ => false

/-- The write of an arrival's line under its tag (R424, R425, R428, R431). -/
def State.writeArr (s : State) (r : RoomId) (a : Arr) : State :=
  let rm := s.room r
  let t := (sget rm.pan.tags a.line).toNat
  let b := bankOf a.line
  if rm.bankDown b (s.cyc r) then s.arrFault r a fcPanGated
  else if t = 0 && !(inMask rm.pan.own b) then s.arrFault r a fcPanOwner
  else if !a.isDw && decide (t ≥ 2) then s.arrFault r a fcPanOverrun
  else
    let bits := chargeOf a.retried a.refresh
    let per := (s.wing (wingOf r)).periods
    let rm := { rm with pan := rm.pan.writeLine a.line a.mask a.data a.poison }
    let rm := if t = 0 then rm
      else
        let rm := rm.setTag a.line 3
        { rm with pan := { rm.pan with bits := sput rm.pan.bits a.line bits } }
    let rm := if a.isDw then
        { rm with
          pan := { rm.pan with fetched := sput rm.pan.fetched a.line (BitVec.ofNat 64 (per + 1)) }
          dw := { rm.dw with linesFetched := satAdd rm.dw.linesFetched 1 } }
      else rm
    (s.setRoom r rm).clearReads r a.line bits

/-! ## Latch packets (R520, R522, R523) -/

/-- The local OINC and LINC updates of the present gc, which precede an arrival through the port (R523). -/
def flushLat (r : RoomId) (s : State) : State :=
  if !(s.advancing (wingOf r)) then s
  else
    let cyc := s.cyc r
    let due (p : Pend) : Bool := decide (p.due ≤ cyc) && (match p.eff with
      | .oinc .. => true
      | .linc .. => true
      | _ => false)
    let isO (p : Pend) : Bool := match p.eff with
      | .oinc .. => true
      | _ => false
    let todo := (s.room r).pend.filter due
    let s := s.modRoom r fun rm => { rm with pend := rm.pend.filter fun p => !due p }
    (todo.filter isO ++ todo.filter (fun p => !isO p)).foldl (fun s p =>
      match p.eff with
      | .oinc l g i => s.latchArrive r l g i 0 (s.srcOf 8 r.val (tagOf p.word) 0) (some p.word)
      | .linc l g i src => s.latchArrive r l g i 0 src (some p.word)
      | _ => s) s

/-- LATCH_PACKET_ARRIVAL: the port takes one period, and the packet is acknowledged (R522, R611). -/
def latchPacketArrival (r : RoomId) (s : State) : State :=
  match s.takes r 0 with
  | none => s
  | some a =>
    match a.kind with
    | .inc l g i =>
      let s := ((flushLat r s).modRoom r (·.dropArr a)).usePort r 1 false
      let s := s.latchArrive r l g i (chargeOf a.retried a.refresh) a.src none
      if a.fab then s.countAck r a.srank a.sroom a.retried else s
    | _ => s

/-! ## Mailslot records (R542 to R545, R607) -/

/-- The packet of a refused record goes back to the router (R544, R596), on the back stair when it came on it (R607). -/
def Arr.returnPkt (a : Arr) (r : RoomId) (own : BitVec 12) (mslot : Nat) (h : BitVec 128) : Pkt :=
  let arg := pack [(0, 16, msgSeq h), (16, 4, msgHidx h), (20, 2, mslot), (22, 1, b2n (bit h 30)), (23, 3, field h 51 3)]
  let hd := pktHdr kMsg false a.retried own r.val (msgSrank h) (msgSroom h).toNat (msgPlen h) (msgStag h) arg
  { hdr := if a.bs then setField hd 26 1 1 else hd, data := a.data, mask := fullMask, poison := a.poison }

/-- The bytes of a record (R541). -/
def recordBytes (h : BitVec 128) (payload : Bytes) : Bytes :=
  leBytes 16 h.toNat ++ slice payload 0 (16 * cdiv (msgPlen h) 16)

/-- Bytes at a Pantry offset, written through the Arrivals port line by line. -/
def Pan.writeBytes (p : Pan) (off : Nat) (bs : Bytes) : Pan :=
  let lines := linesOf off bs.length
  lines.foldl (fun p l =>
    let lo := max off (256 * l)
    let hi := min (off + bs.length) (256 * (l + 1))
    p.writeLine l (byteMask (lo - 256 * l) (hi - lo))
      (List.replicate (lo - 256 * l) 0 ++ slice bs (lo - off) (hi - lo)) 0) p

/-- MAILSLOT_RECORD_ARRIVAL: the oldest arrival is a record. [DEDUCED: log 68.] -/
def mailslotRecordArrival (r : RoomId) (s : State) : State :=
  match s.takes r 0 with
  | none => s
  | some a =>
    match a.kind with
    | .msg m h =>
      let s0 := s.modRoom r (·.dropArr a)
      let ack (s : State) : State := if a.fab then s.countAck r a.srank a.sroom a.retried else s
      let tag := msgStag h
      let sender := [BitVec.ofNat 64 m, (msgSrank h).zeroExtend 64, (msgSroom h).zeroExtend 64, BitVec.ofNat 64 (msgSeq h),
        tag.zeroExtend 64]
      match (s.room r).comm.ring m with
      | none => ack ((s0.usePort r 1 false).msgFault r fcMsgSender tag sender)
      | some g =>
        let ahead := (msgSeq h + 65536 - g.expSeq.toNat) % 65536
        if !(g.fromSender h) || decide (ahead > 32767) then
          ack ((s0.usePort r 1 false).msgFault r fcMsgSender tag sender)
        else if ahead ≠ 0 then
          let s := s0.modRoom r fun rm => { rm with comm := rm.comm.setRing m { g with refused := satAdd g.refused 1 } }
          if a.fab then
            let p := a.returnPkt r s.ownRank m h
            s.modPorch (homePorch r) fun x => { x with returns := x.returns ++ [p], returned := x.returned + 1 }
          else s.modRoom r (·.arrive a)
        else
          let per := (s.wing (wingOf r)).periods
          match g.place h a.data (a.poison != 0) 0 with
          | none =>
            let s := s0.modRoom r fun rm => { rm with comm := rm.comm.setRing m { g with expSeq := g.expSeq + 1 } }
            ack ((s.usePort r 1 false).msgFault r fcMsgOverrun tag
              [BitVec.ofNat 64 m, BitVec.ofNat 64 (msgSeq h), tag.zeroExtend 64, BitVec.ofNat 64 g.used])
          | some x =>
            let padded := decide (x.1 = 0) && decide (g.wptr ≠ 0)
            let bytes := recordBytes h a.data
            let off := 256 * g.base + 16 * x.1
            let ls := linesOf off bytes.length
            let n := ls.length + b2n padded
            let rm := s.room r
            let first := { a with line := ls.headD g.base }
            let bad := ls.find? fun l => rm.bankDown (bankOf l) (s.cyc r) || !(inMask rm.pan.own (bankOf l))
            match bad with
            | some l =>
              let s := s0.modRoom r fun rm => { rm with comm := rm.comm.setRing m { g with expSeq := g.expSeq + 1 } }
              let f := { first with line := l }
              ack ((s.usePort r 1 false).arrFault r f
                (if rm.bankDown (bankOf l) (s.cyc r) then fcPanGated else fcPanOwner))
            | none =>
              let ready := per + n - 1 + 6
              let g' := { x.2 with recs := x.2.recs.map fun q => if q.readyAt = 0 then { q with readyAt := ready } else q }
              let pad := BitVec.ofNat 128 (pack [(29, 1, 1), (64, 16, g.ru - g.wptr)])
              let s := s0.modRoom r fun rm =>
                let pan := if padded then rm.pan.writeBytes (256 * g.base + 16 * g.wptr) (leBytes 16 pad.toNat) else rm.pan
                let pan := pan.writeBytes off bytes
                { rm with pan := pan, comm := rm.comm.setRing m g' }
              ack (s.usePort r n false)
    | _ => s

/-! ## The scrubber (R434, R435) -/

/-- PANTRY_SCRUB_STEP: a gc in which neither port uses the bank. `scFree` counts such gc since the bank's last step. [DESIGN CHOICE: log 85.] -/
def pantryScrubStep (r : RoomId) (bank : Fin 12) (wfree : Bool) (s : State) : State :=
  let rm := s.room r
  let b := bank.val
  let used := inMask (s.busyBanks r 0) b
  if !rm.on || used || rm.bankDown b (s.cyc r) then s
  else if rm.pan.scFree[b] < rm.pan.gap.toNat then
    s.setRoom r { rm with pan := { rm.pan with scFree := rm.pan.scFree.set b (rm.pan.scFree[b] + 1) } }
  else
    let line := 256 * b + rm.pan.scLine[b]
    let words := (List.range 32).map (32 * line + ·)
    let due := words.any fun k => sget rm.pan.due k == 1#1
    let sbe := words.filter fun k => sget rm.pan.sbe k == 1#1
    let s := s.setRoom r { rm with pan := { rm.pan.addCorr sbe.length 0 line with scFree := rm.pan.scFree.set b 0 } }
    let s := if due then
        (s.modRoom r fun rm => { rm with pan := rm.pan.setStatus 5 0 line }).raiseBare r fcPanDue 0 [BitVec.ofNat 64 line]
      else s
    if !sbe.isEmpty && !wfree then s
    else s.modRoom r fun rm =>
      let next := (rm.pan.scLine[b] + 1) % 256
      let passes := if next = 0 then rm.pan.scPass.set b (rm.pan.scPass[b] + 1) else rm.pan.scPass
      let all := passes.toList.all (fun n => decide (0 < n))
      { rm with pan := { rm.pan with
          sbe := sbe.foldl (fun m k => sput m k 0#1) rm.pan.sbe
          scLine := rm.pan.scLine.set b next
          scPass := if all then passes.map (· - 1) else passes
          passes := if all then satAdd rm.pan.passes 1 else rm.pan.passes } }

/-! ## The commands -/

/-- POWN, and the Pantry control commands with a reserved OPCODE (R845). -/
def execPown (r : RoomId) (c : QCmd) (s : State) : Host.Outcome State Fault Refusal :=
  s.done (if opcodeOf c.word = 1 then pown r c s else panReserved r c s)

def execPgate (r : RoomId) (c : QCmd) (s : State) : Host.Outcome State Fault Refusal := s.done (pgate r c s)
def execPwake (r : RoomId) (c : QCmd) (s : State) : Host.Outcome State Fault Refusal := s.done (pwake r c s)
def execPtagclr (r : RoomId) (c : QCmd) (s : State) : Host.Outcome State Fault Refusal := s.done (ptagclr r c s)
def execPantryBankUsable (r : RoomId) (bank : Fin 12) (s : State) : Host.Outcome State Fault Refusal :=
  s.done (pantryBankUsable r bank s)
def execLatchPacketArrival (r : RoomId) (s : State) : Host.Outcome State Fault Refusal := s.done (latchPacketArrival r s)
def execMailslotRecordArrival (r : RoomId) (s : State) : Host.Outcome State Fault Refusal :=
  s.done (mailslotRecordArrival r s)
def execPantryScrubStep (r : RoomId) (bank : Fin 12) (wfree : Bool) (s : State) : Host.Outcome State Fault Refusal :=
  s.done (pantryScrubStep r bank wfree s)

end Sys2Proof.Machine
end

