-- ==== Sys2Proof/Machine/Dumbwaiter.lean ====
section
/-! DEFINITION. The Dumbwaiter (chapter 09): streams and their requests, returns and acknowledgements; the work of the
Arrivals port on lines; the engine commands of a Room (chapter 10). -/

namespace Sys2Proof.Machine

/-! ## Requests and footprint (R440, R442) -/

/-- The requests of row `r` from byte `j`; `fuel` bounds their number. -/
def rowReqs (t : Stream) (r : Nat) : Nat → Nat → List DwReq
  | 0, _ => []
  | fuel + 1, j =>
    if j < t.rlen then
      let h := t.haddr + r * t.hstride + j
      let o := (r * t.pstride + j) / 256
      let line := t.pbase / 256 + (if t.pring = 0 then o else o % t.pring)
      let n := min (t.rlen - j) (4096 - h % 4096)
      let n := if t.pring = 0 then n else min n (256 * (t.pring - o % t.pring))
      { haddr := h, n := n, line := line } :: rowReqs t r fuel (j + n)
    else []

/-- Every request of a stream, in order. -/
def streamReqs (t : Stream) : List DwReq := (List.range t.nrows).flatMap fun r => rowReqs t r 256 0

/-- The lines of a request. -/
def DwReq.lines (q : DwReq) : List Nat := (List.range (q.n / 256)).map (q.line + ·)

/-- The footprint of a stream. -/
def footprint (t : Stream) : List Nat :=
  if t.pring = 0 then ((streamReqs t).flatMap DwReq.lines).eraseDups
  else (List.range t.pring).map (t.pbase / 256 + ·)

/-- The Pantry bytes of a footprint (offset, length), for R337. -/
def footRanges (t : Stream) : List (Nat × Nat) :=
  if t.pring = 0 then (List.range t.nrows).map fun r => (t.pbase + r * t.pstride, t.rlen)
  else [(t.pbase, 256 * t.pring)]

/-- Does an access leave the NPAGE pages of its descriptor (R442, R500)? -/
def outsidePages (haddr npage a n : Nat) : Bool :=
  let lo := haddr / 0x200000 * 0x200000
  decide (a < lo) || decide (a + n > lo + npage * 0x200000)

/-- The bounding range of a stream descriptor: first and last byte (R496). -/
def boundRange (t : Stream) : Nat × Nat := (t.haddr, t.haddr + (t.nrows - 1) * t.hstride + t.rlen - 1)

/-! ## Commands (R437 to R446) -/

/-- A Dumbwaiter command starts in the first gc in which it is at the head, a non-advancing one too (R438, R319); `dwFree`
counts periods of the Wing clock. [DEDUCED: log 71.] -/
def State.dwReady (s : State) (r : RoomId) (c : QCmd) : Bool :=
  let g := s.wing (wingOf r)
  let rm := s.room r
  rm.on && g.clockOn && !g.halted && decide (unitOf c.word = 1) && (rm.queue 1).head? == some c &&
    decide (rm.dwFree ≤ g.periods)

def State.beginDw (s : State) (r : RoomId) (c : QCmd) : State :=
  let p := (s.wing (wingOf r)).periods
  (s.begin r 1 c 1 0).modRoom r fun rm => { rm with dwFree := p + 1 }

/-- Is a stream context active (R439)? [DEDUCED: log 71.] -/
def Dw.active (d : Dw) (ctx : Nat) : Bool := d.streams.any fun t => t.bound && t.ctx == ctx

/-- DW_FIELD of a command (R462). -/
def dwFieldBad (op : Nat) (c : BitVec 128) (dir : Bool) : Bool :=
  field c 46 2 != 0 || field c 54 2 != 0 || field c 64 64 != 0 || decide (field c 48 6 > 47) ||
    (op == 1 && dir) || (op == 2 && !dir)

/-- Lines with tag NONE take tag `t` (R439, R498, R499). -/
def Room.armLines (rm : Room) (ls : List Nat) (t : Nat) : Room :=
  ls.foldl (fun rm l => if (sget rm.pan.tags l).toNat = 0 then rm.setTag l t else rm) rm

/-- A fault of a Dumbwaiter command: a descriptor's (R359), or its own. -/
def State.dwFault (s : State) (r : RoomId) (c : BitVec 128) (e : Nat × List (BitVec 64)) : State :=
  if e.1 = fcDwField || e.1 = fcXgField then s.cmdFault r c e.1 e.2 else s.descFault r c e

/-- The latency of the Dumbwaiter issue path (R81, R82). -/
def issueLat (profile : Nat) : Nat := if profile = 2 then 12 else 20

/-- DWFETCH (`op` 1) and DWPUT (`op` 2). -/
def dwStream (op : Nat) (r : RoomId) (c : QCmd) (s : State) : State :=
  let rm := s.room r
  let w := c.word
  let ctx := field w 43 2
  let di := field w 32 11
  if !(s.dwReady r c) || !(opcodeOf w == op) || rm.dw.active ctx then s
  else
    let started := s.beginDw r c
    if !c.pred then started.skipEcc r w [di]
    else
      let t := streamOf (rm.descOf di)
      let err := firstErr [
        rm.descErr s.tabs di 2 w, rangeErr di (footRanges t),
        if dwFieldBad op w t.dir then some (fcDwField, cmdWords w) else none]
      match err with
      | some e => started.dwFault r w e
      | none =>
        let reqs := streamReqs t
        let b := boundRange t
        started.modRoom r fun rm =>
          let rm := rm.armLines (footprint t) (if op = 1 then 1 else 3)
          let st : DwStream :=
            { id := rm.dw.nextId, ctx := ctx, fetch := op == 1, tag := tagOf w, bound := true, todo := reqs, first := true,
              firstAt := s.cyc r + issueLat s.job.runProfile.toNat, depth := t.depth,
              pageLo := t.haddr, pageHi := t.npage, dlen := bit w 45, dlatch := field w 48 6,
              dgen := w.extractLsb' 56 8, infl := 0, zero := 0, bits := 0, rangeLo := b.1, rangeHi := b.2, left := reqs,
              gdone := [] }
          { rm with dw := { rm.dw with streams := rm.dw.streams ++ [st], nextId := rm.dw.nextId + 1 } }

/-- A change of one stream. -/
def Room.modStream (rm : Room) (id : Nat) (f : DwStream → DwStream) : Room :=
  { rm with dw := { rm.dw with streams := rm.dw.streams.map fun t => if t.id = id then f t else t } }

/-- A stream with nothing left to issue and nothing incomplete ends, and signals its latch (R445). -/
def streamCheck (r : RoomId) (id : Nat) (s : State) : State :=
  match (s.room r).dw.streams.find? (fun t => t.id == id) with
  | none => s
  | some t =>
    if !t.todo.isEmpty || t.infl ≠ 0 || t.zero ≠ 0 then s
    else
      let s := s.modRoom r fun rm =>
        { rm with dw := { rm.dw with streams := rm.dw.streams.filter fun x => x.id != id } }
      if t.dlen then s.latchArrive r t.dlatch t.dgen 1 t.bits (s.srcOf 1 r.val t.tag t.ctx) none else s

/-- A stream issues no further request and its context becomes idle (R446). -/
def haltStream (r : RoomId) (id : Nat) (s : State) : State :=
  let stop (t : DwStream) : DwStream :=
    { t with todo := [], bound := false, left := t.left.filter fun q => !(t.todo.contains q) }
  streamCheck r id (s.modRoom r fun rm => rm.modStream id stop)

/-- The effect of DWHALT, from the gc after its start. -/
def haltCtx (r : RoomId) (ctx : Nat) (s : State) : State :=
  match (s.room r).dw.streams.find? (fun t => t.bound && t.ctx == ctx) with
  | some t => haltStream r t.id s
  | none => s

/-- Every stream of a Room halts as by DWHALT (R743, R806). -/
def haltAll (r : RoomId) (s : State) : State :=
  ((s.room r).dw.streams.map (·.id)).foldl (fun s i => haltStream r i s) s

/-- [DESIGN CHOICE: log 70.] -/
def dwhalt (r : RoomId) (c : QCmd) (s : State) : State :=
  let w := c.word
  if !(s.dwReady r c) || !(opcodeOf w == 3) then s
  else
    let started := s.beginDw r c
    if !c.pred then started
    else if dwFieldBad 3 w false then started.cmdFault r w fcDwField (cmdWords w)
    else started.addPend r (s.cyc r + 1) w (.halt (field w 43 2))

/-- A Dumbwaiter command with a reserved OPCODE (R845). -/
def dwReserved (r : RoomId) (c : QCmd) (s : State) : State :=
  if !(s.dwReady r c) || [1, 2, 3, 8, 9, 10].contains (opcodeOf c.word) then s
  else
    let s := s.beginDw r c
    if c.pred then s.cmdFault r c.word fcDwField (cmdWords c.word) else s

/-! ## Engine commands (R493 to R499, R515) -/

/-- The element size of an XPOSE. -/
def esizeOf (c : BitVec 128) : Nat := 2 ^ field c 75 2

/-- XG_FIELD of an engine command over its two descriptors. -/
def xgBad (op : Nat) (c : BitVec 128) (d x : BitVec 256) : Bool :=
  let s := streamOf d
  let t := streamOf x
  let e := esizeOf c
  let bs := boundRange s
  let bt := boundRange t
  field c 43 2 != 0 || field c 46 2 != 0 || field c 54 2 != 0 || field c 77 51 != 0 || field c 75 2 == 3 ||
    decide (field c 48 6 > 47) ||
    (if op = 8 then
      s.dir || !t.dir || decide (t.nrows ≠ s.rlen / e) || decide (t.rlen ≠ cdiv (s.nrows * e) 256 * 256) ||
        (decide (bs.1 ≤ bt.2) && decide (bt.1 ≤ bs.2))
    else
      field c 75 2 != 0 || (s.dir != (op == 10)) || s.pring != 0 || t.dir || t.nrows != 1 ||
        decide (t.rlen < 4 * s.nrows))

/-- XPOSE (8), GATHER (9) and SCATTER (10): the operation joins the queue of its engine. -/
def engineCmd (op : Nat) (r : RoomId) (c : QCmd) (s : State) : State :=
  let rm := s.room r
  let w := c.word
  let d1 := field w 32 11
  let d2 := field w 64 11
  if !(s.dwReady r c) || !(opcodeOf w == op) || rm.dw.eng.isSome then s
  else
    let started := s.beginDw r c
    if !c.pred then started.skipEcc r w [d1, d2]
    else
      let x := rm.descOf d1
      let y := rm.descOf d2
      let t := streamOf x
      let kinds (d : Nat) := rm.descErr s.tabs d 2 w
      let at3 (code : Nat) (d : Nat) := match kinds d with
        | some e => if e.1 = code then some e else none
        | none => none
      let err := firstErr ([fcDescDue, fcDescKind, fcDescField].flatMap (fun k => [at3 k d1, at3 k d2]) ++ [
        if op = 8 then none else rangeErr d1 (footRanges { t with pring := 0 }),
        if xgBad op w x y then some (fcXgField, cmdWords w) else none])
      match err with
      | some e => started.dwFault r w e
      | none =>
        let n := (wingOf r).val
        let o : EngOp := { room := r, op := op, word := w, desc := x, desc2 := y }
        let e : RoomEng :=
          { xpose := op == 8, cellar := n, tag := tagOf w, dlen := bit w 45, dlatch := field w 48 6,
            dgen := w.extractLsb' 56 8 }
        let s := started.modRoom r fun rm =>
          let rm := if op = 8 then rm else rm.armLines (footprint t) (if op = 9 then 1 else 3)
          { rm with dw := { rm.dw with eng := some e } }
        let put (k : Cellar) : Cellar :=
          if op = 8 then { k with xpose := { k.xpose with queue := k.xpose.queue ++ [o] } }
          else { k with gs := { k.gs with queue := k.gs.queue ++ [o] } }
        { s with mem := { s.mem with cellars := s.mem.cellars.set (wingOf r).val (put s.mem.cellars[(wingOf r).val]) } }

/-! ## Requests leave (R441, R442) -/

/-- Requests of a Room in flight (R436). -/
def Dw.slots (d : Dw) : Nat := d.streams.foldl (fun n t => n + t.infl) 0

/-- Is the next request of a stream withheld (R442)? -/
def DwStream.withheld (t : DwStream) (q : DwReq) : Bool := outsidePages t.pageLo t.pageHi q.haddr q.n

/-- May the next request of a stream be taken in this gc (R441 items 1 to 3, R442)? -/
def State.reqReady (s : State) (r : RoomId) (t : DwStream) : Bool :=
  let rm := s.room r
  match t.todo with
  | [] => false
  | q :: _ =>
    let lines := q.lines.all fun l =>
      (sget rm.pan.tags l).toNat == (if t.fetch then 1 else 3) && !(rm.bankDown (bankOf l) (s.cyc r))
    lines && (!t.first || decide (t.firstAt ≤ s.cyc r)) &&
      (t.withheld q || (decide (t.infl < t.depth) && decide (rm.dw.slots < 48)))

/-- The stream served in this gc: the contexts take turns after the one served last (R441 item 4). -/
def State.reqPick (s : State) (r : RoomId) : Option DwStream :=
  let rm := s.room r
  let g := s.wing (wingOf r)
  if !rm.on || !g.clockOn || decide (rm.dw.issuedAt > g.periods) then none
  else [1, 2, 3, 4].findSome? fun i =>
    let ctx := (rm.dw.last + i) % 4
    rm.dw.streams.find? fun t => t.bound && t.ctx == ctx && s.reqReady r t

/-- The stream's next request has been taken; with its last one the context becomes idle. -/
def DwStream.took (t : DwStream) : DwStream :=
  { t with todo := t.todo.drop 1, first := false, bound := decide (t.todo.length > 1) }

/-- A request joins those in flight. -/
def State.addReq (s : State) (r : RoomId) (t : DwStream) (q : DwReq) (withheld : Bool) : State :=
  let e : Req :=
    { id := s.mem.nextReq, room := r, stream := t.id, ctx := t.ctx, tag := t.tag, fetch := t.fetch, addr := q.haddr,
      n := q.n, line := q.line, left := q.lines, data := [],
      phase := if withheld then .writing else if t.fetch then .sent else .reading, withheld := withheld,
      retried := false, refresh := false, flits := [] }
  { s with mem := { s.mem with reqs := s.mem.reqs ++ [e], nextReq := s.mem.nextReq + 1 } }

/-- The Room's counters when a request is taken. -/
def State.served (s : State) (r : RoomId) (t : DwStream) : State :=
  let p := (s.wing (wingOf r)).periods
  s.modRoom r fun rm => { rm with dw := { rm.dw with last := t.ctx, issuedAt := p + 1 } }

/-- DW_REQUEST_ISSUE. -/
def dwRequestIssue (r : RoomId) (s : State) : State :=
  match s.reqPick r with
  | none => s
  | some t =>
    match t.todo with
    | [] => s
    | q :: _ =>
      if t.withheld q then s
      else
        let s := (s.served r t).modRoom r fun rm =>
          let rm := if t.fetch then q.lines.foldl (fun rm l => rm.setTag l 2) rm else rm
          let rm := rm.modStream t.id fun x => { x.took with infl := x.infl + 1 }
          { rm with dw := { rm.dw with reqIssued := satAdd rm.dw.reqIssued 1 } }
        s.addReq r t q false

/-- A Dumbwaiter arrival (R444). -/
def dwArr (id line : Nat) (data : Bytes) (poison : BitVec 32) (retried refresh : Bool) (src : BitVec 64) : Arr :=
  { kind := .dw id, line := line, data := data, mask := fullMask, poison := poison, retried := retried,
    refresh := refresh, src := src, srank := 0, sroom := 0, fab := false, bs := false }

/-- The write conditions on a line that has become EMPTY clear (R353, R426). -/
def State.clearWrites (s : State) (r : RoomId) (line : Nat) : State :=
  let waits (f : Frz) : Bool := match f with
    | .line _ l true => l == line
    | _ => false
  if (s.room r).frz.any waits then
    (s.modRoom r fun rm => { rm with frz := rm.frz.filter fun f => !waits f }).modWing (wingOf r) fun g =>
      { g with frzBits := none, held := true }
  else s

/-- DW_REQUEST_WITHHELD. -/
def dwRequestWithheld (r : RoomId) (s : State) : State :=
  match s.reqPick r with
  | none => s
  | some t =>
    match t.todo with
    | [] => s
    | q :: _ =>
      if !(t.withheld q) then s
      else
        let s := (s.served r t).modRoom r fun rm =>
          let rm := q.lines.foldl (fun rm l => rm.setTag l (if t.fetch then 2 else 1)) rm
          let rm := rm.modStream t.id fun x => { x.took with zero := x.zero + (if t.fetch then 1 else 0) }
          { rm with
            pan := rm.pan.setStatus 7 t.tag q.line
            dw := { rm.dw with fenced := satAdd rm.dw.fenced 1 } }
        if t.fetch then
          let id := s.mem.nextReq
          let src := s.srcOf 1 r.val t.tag t.ctx
          let s := s.addReq r t q true
          q.lines.foldl (fun s l => s.modRoom r (·.arrive (dwArr id l (List.replicate 256 0) 0 false false src))) s
        else streamCheck r t.id (q.lines.foldl (fun s l => s.clearWrites r l) s)

/-! ## Completion (R444, R445) -/

/-- A request completes: it leaves the requests in flight, and its stream takes its arrival bits. -/
def State.finishReq (s : State) (q : Req) : State :=
  let s := { s with mem := { s.mem with reqs := s.mem.reqs.filter fun x => x.id != q.id } }
  let upd (t : DwStream) : DwStream :=
    { t with
      infl := if q.withheld then t.infl else t.infl - 1
      zero := if q.withheld then t.zero - 1 else t.zero
      bits := t.bits ||| chargeOf q.retried q.refresh
      left := delFirst (fun x => x.haddr == q.addr && x.n == q.n && x.line == q.line) t.left
      gdone := if t.gdone.contains (q.addr / 4096) then t.gdone else q.addr / 4096 :: t.gdone }
  streamCheck q.room q.stream (s.modRoom q.room fun rm => rm.modStream q.stream upd)

def State.reqOf (s : State) (id : Nat) : Option Req := s.mem.reqs.find? fun q => q.id == id

def State.modReq (s : State) (id : Nat) (f : Req → Req) : State :=
  { s with mem := { s.mem with reqs := s.mem.reqs.map fun q => if q.id = id then f q else q } }

/-- DW_FETCH_RETURN: the lines enter the arrival buffer together, in ascending order. -/
def dwFetchReturn (r : RoomId) (id : Nat) (s : State) : State :=
  match s.reqOf id with
  | none => s
  | some q =>
    let p := (s.room r).pan
    if q.room ≠ r || !q.fetch || q.phase ≠ .served || !p.held.isEmpty || decide (p.buf.length + q.n / 256 > 32) then s
    else
      let src := s.srcOf 1 r.val q.tag q.ctx
      let s := s.modReq id fun q => { q with phase := .writing, data := [] }
      (indexed q.data).foldl (fun s x =>
        s.modRoom r (·.arrive (dwArr id (q.line + x.1) x.2.1 x.2.2 q.retried q.refresh src))) s

/-- DW_WRITEBACK_ACK. -/
def dwWritebackAck (r : RoomId) (id : Nat) (s : State) : State :=
  match s.reqOf id with
  | none => s
  | some q => if q.room ≠ r || q.fetch || q.phase ≠ .served then s else s.finishReq q

/-! ## The Arrivals port on lines -/

/-- A line of a fetch return has been written or discarded (R444). -/
def State.dwWritten (s : State) (id line : Nat) : State :=
  match s.reqOf id with
  | none => s
  | some q =>
    let q' := { q with left := q.left.filter (· != line) }
    if q'.left.isEmpty then s.finishReq q' else s.modReq id fun _ => q'

def State.modCellar (s : State) (n : Nat) (f : Cellar → Cellar) : State :=
  if h : n < 4 then { s with mem := { s.mem with cellars := s.mem.cellars.set n (f s.mem.cellars[n]) } } else s

/-- A line of a collective result has been written (R640). -/
def State.collWritten (s : State) (p ctx inst idx : Nat) : State :=
  let mark (l : CollLine) : CollLine := if l.idx = idx then { l with written := true } else l
  let onInst (i : CollInst) : CollInst := if i.no = inst then { i with lines := i.lines.map mark } else i
  s.modPorch (Fin.ofNat 2 p) fun x =>
    if h : ctx < 16 then
      { x with coll := x.coll.set ctx { x.coll[ctx] with insts := x.coll[ctx].insts.map onInst } }
    else x

/-- ARRIVAL_WRITE (R420): the oldest arrival whose bank is free is written, and whoever waits for it is told. -/
def arrivalWrite (r : RoomId) (busy : BitVec 12) (s : State) : State :=
  match s.takes r busy with
  | none => s
  | some a =>
    let write (s : State) : State := ((s.modRoom r (·.dropArr a)).usePort r 1 false).writeArr r a
    match a.kind with
    | .inc .. => s
    | .msg .. => s
    | .dw id => (write s).dwWritten id a.line
    | .data =>
      let s := write s
      if a.fab then s.countAck r a.srank a.sroom a.retried else s
    | .watch => write s
    | .comp rid => (write s).palResp 0x21 rid 0 0 false [] false
    | .gather n =>
      let upd (u : EngRun) : EngRun :=
        { u with out := u.out - 1, bits := u.bits ||| chargeOf a.retried a.refresh }
      (write s).modCellar n fun k => { k with gs := { k.gs with cur := k.gs.cur.map upd } }
    | .coll p ctx inst idx => (write s).collWritten p ctx inst idx

/-! ## HBM and its stacks, as far as a write needs them (R470, R471, R474) -/

/-- The stack and the Cellar of an HBM address (R470). -/
def stackOf (a : Nat) : Nat := (nbits a 12 3).xor ((nbits a 15 3).xor (nbits a 18 3))

def State.stack (s : State) (n : Nat) : Stack := ((s.mem.cellars.toList.getD (n / 2) default).stk.toList.getD (n % 2) default)

def State.modStack (s : State) (n : Nat) (f : Stack → Stack) : State :=
  s.modCellar (n / 2) fun k => if h : n % 2 < 2 then { k with stk := k.stk.set (n % 2) (f k.stk[n % 2]) } else k

/-- Is an extra refresh window of a stack open (R478, R480)? -/
def State.extraOpen (s : State) (n : Nat) : Bool := decide (s.rc < (s.stack n).extraEnd)

/-- A write enters its stack queue, which acknowledges it (R474); an access in a queue during an extra window carries the
refresh-held bit (R480). -/
def State.queueWrite (s : State) (addr : Nat) (data : Bytes) (poison : Bool) (src : BitVec 64) : State :=
  let n := stackOf addr
  let cws := if poison then (List.range ((addr + data.length - 1) / 64 - addr / 64 + 1)).map (addr / 64 + ·) else []
  s.modStack n fun k => { k with queue := k.queue ++ [
    { req := none, ans := none, addr := addr, n := data.length, writes := [(addr, data)], bad := cws, refresh := s.extraOpen n,
      src := src }] }

/-! ## Region table and address map (R468, R469, R490) -/

def hbmTop : Nat := 0x007FE0000000

def isComp (a : Nat) : Bool := decide (compBase ≤ a) && decide (a < 0x070000000000)

/-- Has an access to this granule its right (R490)? -/
def State.hasRight (s : State) (a : Nat) (wr : Bool) : Bool :=
  (decide (a < hbmTop) || isComp a) && s.mem.regions.any fun e =>
    let base := field e 0 48
    bit e 96 && bit e (if wr then 49 else 48) && decide (base ≤ a / 4096 * 4096) &&
      decide (a / 4096 * 4096 < base + 4096 * (field e 64 30 + 1))

/-- A suppressed access is counted in its Room (R443, R500). -/
def State.countSupp (s : State) (r : RoomId) (tag : BitVec 16) (line : Nat) : State :=
  s.modRoom r fun rm => { rm with
    pan := rm.pan.setStatus 6 tag line
    dw := { rm.dw with suppressed := satAdd rm.dw.suppressed 1 } }

/-- A withheld engine access is counted in its Room (R500). -/
def State.countFence (s : State) (r : RoomId) (tag : BitVec 16) (line : Nat) : State :=
  s.modRoom r fun rm => { rm with
    pan := rm.pan.setStatus 7 tag line
    dw := { rm.dw with fenced := satAdd rm.dw.fenced 1 } }

/-! ## Stale prefetches (R770) -/

/-- Does a stream still wait for the granule of an address in its range? -/
def DwStream.waitsFor (t : DwStream) (a : Nat) : Bool :=
  let g := a / 4096
  t.fetch && decide (t.rangeLo ≤ a) && decide (a ≤ t.rangeHi) &&
    (!(t.gdone.contains g) || t.left.any fun q => decide (q.haddr / 4096 ≤ g) && decide (g ≤ (q.haddr + q.n - 1) / 4096))

/-- Does an engine operation still wait for the granule of an address in the range it reads? -/
def EngOp.waitsFor (o : EngOp) (done : List Nat) (a : Nat) : Bool :=
  let b := boundRange (streamOf o.desc)
  o.op != 10 && decide (b.1 ≤ a) && decide (a ≤ b.2) && !(done.contains (a / 4096))

/-- A device-originated write of an HBM or companion address is compared with the ranges in force. -/
def State.smokeStale (s : State) (a : Nat) (tag2 : BitVec 16) : State :=
  if !s.smoke.debug then s
  else
    let s := allRooms.foldl (fun s r => ((s.room r).dw.streams.filter fun t => t.waitsFor a).foldl
      (fun s t => s.smokeRep (some r) 5 t.tag tag2 a) s) s
    let ops := s.mem.cellars.toList.flatMap fun k => [k.xpose, k.gs].flatMap fun e =>
      (e.queue.map fun o => (o, ([] : List Nat))) ++ (match e.cur with
        | some u => [(u.op, u.gran)]
        | none => [])
    (ops.filter fun o => o.1.waitsFor o.2 a).foldl
      (fun s o => s.smokeRep (some o.1.room) 5 (tagOf o.1.word) tag2 a) s

/-! ## Engine writes (R499, R500, R501) -/

/-- One write access of an engine, within one 256-byte line: withheld, suppressed, queued in its stack, or sent to the
companion, whose line `comp` supplies the bytes that the access leaves unchanged. [DEDUCED: log 62.] -/
def engineWrite (xpose : Bool) (n : Nat) (o : EngOp) (t : Stream) (comp : SMap 8) (a : Nat) (data : Bytes) (poison : Bool)
    (s : State) : State :=
  let tag := tagOf o.word
  if outsidePages t.haddr t.npage a data.length then s.countFence o.room tag 0
  else if !(s.hasRight a true) then s.countSupp o.room tag 0
  else
    let s := s.smokeStale a tag
    if isComp a then
      let base := a / 256 * 256
      let old := sgetRange comp base 256
      let img := overlay old (byteMask (a - base) data.length) (List.replicate (a - base) 0 ++ data)
      let fenced := s.pal.fenced
      let s := s.palReq (.engine n xpose) 0x02 (base - compBase) true img poison
      if fenced then s
      else
        let bump (e : Engine) : Engine := { e with cur := e.cur.map fun u => { u with cmps := u.cmps + 1 } }
        s.modCellar n fun k => if xpose then { k with xpose := bump k.xpose } else { k with gs := bump k.gs }
    else
      let refresh := s.extraOpen (stackOf a)
      let s := s.queueWrite a data poison (s.srcOf 5 o.room.val tag 0)
      let mark (e : Engine) : Engine := { e with cur := e.cur.map fun u => { u with bits := u.bits ||| chargeOf false refresh } }
      s.modCellar n fun k => if xpose then { k with xpose := mark k.xpose } else { k with gs := mark k.gs }

/-! ## Write-back reads (R425, R433, R499) -/

/-- A line that has been read for a request or a SCATTER goes where it is bound. [DEDUCED: log 59.] -/
def readDone (f : ReadFor) (data : Bytes) (poison : BitVec 32) (s : State) : State :=
  match f with
  | .put id => s.modReq id fun q =>
    let left := q.left.drop 1
    { q with left := left, data := q.data ++ [(data, poison)], phase := if left.isEmpty then .sent else .reading }
  | .scatter n =>
    match (s.mem.cellars.toList.getD n default).gs.cur with
    | none => s
    | some u =>
      match u.rows with
      | [] => s
      | x :: rest =>
        let s := s.modCellar n fun k => { k with gs := { k.gs with cur := some { u with rows := rest } } }
        engineWrite false n u.op (streamOf u.op.desc) [] x.1 data (poison != 0) s

/-- WRITEBACK_READ. -/
def writebackRead (r : RoomId) (busy : BitVec 12) (s : State) : State :=
  if !(s.portFree r) || (!(s.room r).pan.readTurn && (s.arrCand r busy).isSome) then s
  else match s.readCand r busy with
  | none => s
  | some x =>
    let rm := s.room r
    let cyc := s.cyc r
    let bad := rm.lineBad x.1 cyc
    let data := rm.lineAt x.1 cyc
    let tag := match x.2 with
      | .put id => ((s.reqOf id).map (·.tag)).getD 0
      | .scatter n => (((s.mem.cellars.toList.getD n default).gs.cur).map fun u => tagOf u.op.word).getD 0
    let put := match x.2 with
      | .put _ => 1
      | .scatter _ => 0
    let sbes := ((sgetRange rm.pan.sbe (32 * x.1) 32).filter (· == 1#1)).length
    let s := (s.usePort r 1 true).modRoom r fun rm =>
      let rm := rm.setTag x.1 1
      { rm with
        pan := rm.pan.addCorr sbes tag x.1
        dw := { rm.dw with linesPut := satAdd rm.dw.linesPut put } }
    let s := if bad then
        (s.modRoom r fun rm => { rm with pan := rm.pan.setStatus 5 tag x.1 }).raiseBare r fcPanDue tag [BitVec.ofNat 64 x.1]
      else s
    readDone x.2 data (if bad then BitVec.allOnes 32 else 0) (s.clearWrites r x.1)

/-! ## The commands -/

/-- DWFETCH, and the Dumbwaiter commands with a reserved OPCODE (R845). -/
def execDwfetch (r : RoomId) (c : QCmd) (s : State) : Host.Outcome State Fault Refusal :=
  s.done (if opcodeOf c.word = 1 then dwStream 1 r c s else dwReserved r c s)

def execDwput (r : RoomId) (c : QCmd) (s : State) : Host.Outcome State Fault Refusal := s.done (dwStream 2 r c s)
def execDwhalt (r : RoomId) (c : QCmd) (s : State) : Host.Outcome State Fault Refusal := s.done (dwhalt r c s)
def execXpose (r : RoomId) (c : QCmd) (s : State) : Host.Outcome State Fault Refusal := s.done (engineCmd 8 r c s)
def execGather (r : RoomId) (c : QCmd) (s : State) : Host.Outcome State Fault Refusal := s.done (engineCmd 9 r c s)
def execScatter (r : RoomId) (c : QCmd) (s : State) : Host.Outcome State Fault Refusal := s.done (engineCmd 10 r c s)
def execArrivalWrite (r : RoomId) (busy : BitVec 12) (s : State) : Host.Outcome State Fault Refusal :=
  s.done (arrivalWrite r busy s)
def execWritebackRead (r : RoomId) (busy : BitVec 12) (s : State) : Host.Outcome State Fault Refusal :=
  s.done (writebackRead r busy s)
def execDwRequestIssue (r : RoomId) (s : State) : Host.Outcome State Fault Refusal := s.done (dwRequestIssue r s)
def execDwRequestWithheld (r : RoomId) (s : State) : Host.Outcome State Fault Refusal := s.done (dwRequestWithheld r s)
def execDwFetchReturn (r : RoomId) (id : Nat) (s : State) : Host.Outcome State Fault Refusal := s.done (dwFetchReturn r id s)
def execDwWritebackAck (r : RoomId) (id : Nat) (s : State) : Host.Outcome State Fault Refusal :=
  s.done (dwWritebackAck r id s)

end Sys2Proof.Machine
end

