-- ==== Sys2Proof/Machine/Cellar.lean ====
section
/-! DEFINITION. The Cellars (chapter 10): stack queues, refresh, error correction and scrubbing, and the transpose and
gather/scatter engines. -/

namespace Sys2Proof.Machine

/-! ## HBM contents (R473, R474, R481 to R483) -/

def fcHbmTrain : Nat := 0x5001

/-- Bytes written into HBM: a codeword written whole loses its error, one written poisoned reads as uncorrectable. -/
def Mem.writeHbm (m : Mem) (addr : Nat) (bs : Bytes) : Mem :=
  let cws := (List.range (cdiv (addr + bs.length) 64 - addr / 64)).map (addr / 64 + ·)
  let whole := cws.filter fun k => decide (addr ≤ 64 * k) && decide (64 * k + 64 ≤ addr + bs.length)
  { m with
    hbm := sputList m.hbm addr bs
    hbmBad := whole.foldl (fun t k => sput t k 0#1) m.hbmBad
    hbmSbe := cws.foldl (fun t k => sput t k 0#1) m.hbmSbe }

/-- A write of a stack queue takes place. -/
def Mem.applyItem (m : Mem) (q : QItem) : Mem :=
  let m := q.writes.foldl (fun m w => m.writeHbm w.1 w.2) m
  { m with hbmBad := q.bad.foldl (fun t k => sput t k 1#1) m.hbmBad }

/-- HBM as an access that enters its stack queue now will find it: every queued write made (R474). [DEDUCED: log 54.] -/
def State.hbmView (s : State) : Mem :=
  (List.range 8).foldl (fun m n => (s.stack n).queue.foldl Mem.applyItem m) s.mem

/-- The bytes of HBM from `addr`. -/
def Mem.bytes (m : Mem) (addr n : Nat) : Bytes := sgetRange m.hbm addr n

/-- A read of HBM within one 256-byte line: correctable errors counted, and an uncorrectable one reported once with the
line's lowest failing codeword (R482, R483, R511); does the line come poisoned? -/
def State.readCheck (s : State) (m : Mem) (addr n : Nat) (src : BitVec 64) : Bool × State :=
  let cws := (List.range (cdiv (addr + n) 64 - addr / 64)).map (addr / 64 + ·)
  let sbe := cws.filter fun k => sget m.hbmSbe k == 1#1 && sget m.hbmBad k == 0#1
  let due := cws.filter fun k => sget m.hbmBad k == 1#1
  let cel := stackOf addr / 2
  let s := match sbe.head? with
    | none => s
    | some k => s.modCellar cel fun c =>
        { c with corr := true, corrCount := satAdd c.corrCount sbe.length, lastAddr := BitVec.ofNat 39 (64 * k) }
  match due.head? with
  | none => (false, s)
  | some k =>
    let s := s.modCellar cel fun c =>
      { c with due := true, poisonRd := true, dueCount := satAdd c.dueCount due.length,
               lastAddr := BitVec.ofNat 39 (64 * k) }
    let lroom := field src 16 7
    let rp : Report :=
      { code := BitVec.ofNat 16 fcHbmDue, cls := 0#2, lroom := BitVec.ofNat 7 lroom,
        wing := if lroom < 96 then BitVec.ofNat 2 (wingOf (roomIdOf lroom)).val else 0#2, src := 2#4,
        tag := src.extractLsb' 24 16, body := [BitVec.ofNat 64 (64 * k), src], lost := false }
    (true, s.report rp)

/-- A read of `n` bytes line by line: for each line its bytes and whether it came poisoned. -/
def State.readLinesHbm (s : State) (m : Mem) (addr n : Nat) (src : BitVec 64) : List (Bytes × Bool) × State :=
  (linesOf addr n).foldl (fun x l =>
    let lo := max addr (256 * l)
    let hi := min (addr + n) (256 * (l + 1))
    let c := x.2.readCheck m lo (hi - lo) src
    (x.1 ++ [(m.bytes lo (hi - lo), c.1)], c.2)) ([], s)

/-! ## Requests (R443, R471 to R475) -/

/-- A request without its right: a fetch returns zero bytes, a write-back writes nothing (R443). -/
def suppress (q : Req) (s : State) : State :=
  let zeros := (List.range (q.n / 256)).map fun _ => (List.replicate 256 (0#8), 0#32)
  (s.countSupp q.room q.tag q.line).modReq q.id fun q =>
    { q with phase := .served, data := if q.fetch then zeros else [] }

/-- A request for companion memory leaves over Palbo, one message for each line; a fenced link answers a read with poisoned
data and drops a write (R686, R689). -/
def compRequest (q : Req) (s : State) : State :=
  let parts := List.range (q.n / 256)
  if s.pal.fenced then
    let bad := parts.map fun _ => (List.replicate 256 (0#8), BitVec.allOnes 32)
    let s := if q.fetch then s
      else { s with pal := { s.pal with dropped := satAdd s.pal.dropped parts.length } }
    s.modReq q.id fun q => { q with phase := .served, data := if q.fetch then bad else [] }
  else
    let s := s.modReq q.id fun q =>
      { q with phase := .queued, flits := parts,
               data := if q.fetch then parts.map (fun _ => (List.replicate 256 0, 0)) else q.data }
    parts.foldl (fun s i =>
      let a := q.addr + 256 * i - compBase
      if q.fetch then s.palReq (.fetch q.id i) 0x01 a true [] false
      else
        let d := q.data.getD i ([], 0)
        (s.smokeStale (q.addr + 256 * i) q.tag).palReq (.put q.id) 0x02 a true d.1 (d.2 != 0)) s

/-- The codewords of a write-back that are stored poisoned (R418). -/
def badWords (addr : Nat) (data : List (Bytes × BitVec 32)) : List Nat :=
  (indexed data).flatMap fun x =>
    if x.2.2 = 0 then [] else (List.range 4).map fun i => (addr + 256 * x.1) / 64 + i

/-- HBM_REQUEST_ARRIVE: the region check, and the entry into the stack queue, which acknowledges a write (R474). [DEDUCED: log 59.] -/
def hbmRequestArrive (id : Nat) (s : State) : State :=
  match s.reqOf id with
  | none => s
  | some q =>
    if q.phase ≠ .sent then s
    else if !(s.hasRight q.addr (!q.fetch)) then suppress q s
    else if isComp q.addr then compRequest q s
    else
      let n := stackOf q.addr
      let src := s.srcOf 1 q.room.val q.tag q.ctx
      let open_ := s.extraOpen n
      let item : QItem :=
        { req := if q.fetch then some id else none, ans := none, addr := q.addr, n := q.n,
          writes := if q.fetch then [] else [(q.addr, (q.data.map (·.1)).flatten)],
          bad := if q.fetch then [] else badWords q.addr q.data, refresh := open_, src := src }
      let s := if q.fetch then s else s.smokeStale q.addr q.tag
      let s := s.modStack n fun k => { k with queue := k.queue ++ [item] }
      s.modReq id fun q => { q with phase := if q.fetch then .queued else .served, refresh := q.refresh || open_ }

/-- Is the domain of a stack's Cellar on? -/
def State.stackUp (s : State) (st : StackId) : Bool := bit s.thr.pwr.cellar (st.val / 2)

/-- A companion read that its stack has served is answered with the bytes that stand there (R666, R483). [DEDUCED: log 54.] -/
def answerRead (q : QItem) (s : State) : State :=
  match q.ans with
  | none => s
  | some (rid, multi) =>
    let x := s.readCheck s.mem q.addr q.n q.src
    x.2.palResp 0x20 rid 0 0 multi (s.mem.bytes q.addr q.n) x.1

/-- HBM_REQUEST_BEGIN: the head of the queue is served, outside every window (R473, R475). [DEDUCED: log 59.] -/
def hbmRequestBegin (st : StackId) (s : State) : State :=
  let k := s.stack st.val
  match k.queue with
  | [] => s
  | q :: rest =>
    if !(s.stackUp st) || decide (s.rc < k.winEnd) then s
    else
      let s := s.modStack st.val fun k => { k with queue := rest }
      let s := { s with mem := s.mem.applyItem q }
      match q.req with
      | none => answerRead q s
      | some id =>
        let x := s.readLinesHbm s.mem q.addr q.n q.src
        x.2.modReq id fun r => { r with
          phase := .served
          refresh := r.refresh || q.refresh
          data := x.1.map fun d => (d.1, if d.2 then BitVec.allOnes 32 else 0) }

/-! ## Refresh (R475 to R480) -/

/-- Does a fixed window begin at this rc (R476)? -/
def State.fixedDue (s : State) : Bool :=
  let t := s.tickRc
  let off := s.rc - s.job.lastBound
  if !s.job.ticking || t = 0 then false
  else if t ≥ 390 then off % 390 == 0 && decide (off + 30 ≤ t)
  else off == 0 && s.job.tick.toNat % (390 / t) == 0

/-- FIXED_REFRESH_WINDOW: all eight stacks share it (R477). -/
def fixedRefreshWindow (s : State) : State :=
  if !s.fixedDue then s
  else (List.range 8).foldl (fun s n =>
    if bit s.thr.pwr.cellar (n / 2) then s.modStack n fun k =>
      { k with winEnd := s.rc + 30, lastWin := s.rc, fixedAt := s.rc }
    else s) s

/-- The rc of the next fixed window after this one, the next boundary at its nominal place (R478 item 3). -/
def State.nextFixed (s : State) : Nat :=
  let t := s.tickRc
  let off := s.rc - s.job.lastBound
  if t ≥ 390 then
    let k := off / 390 + 1
    if 390 * k + 30 ≤ t then s.job.lastBound + 390 * k else s.job.lastBound + t
  else
    let m := 390 / (max t 1)
    s.job.lastBound + (m - s.job.tick.toNat % m) * t

/-- Is an extra window of a stack due at this rc (R478)? -/
def State.extraDue (s : State) (st : StackId) : Bool :=
  let k := s.stack st.val
  let off := s.rc - k.fixedAt
  let byLevel := (k.level == 1 && off == 195) || (k.level == 2 && (off == 98 || off == 195 || off == 293))
  let near := decide (s.rc < s.nextFixed) && decide (s.nextFixed ≤ s.rc + 60)
  decide (s.rc > k.lastWin) && ((byLevel && s.job.ticking && !near) || decide (s.rc ≥ k.lastWin + 780))

/-- EXTRA_REFRESH_WINDOW: every request in the queue takes the refresh-held bit (R480). [DESIGN CHOICE: log 61.] -/
def extraRefreshWindow (st : StackId) (s : State) : State :=
  if !(s.stackUp st) || !(s.extraDue st) then s
  else
    let s := s.modStack st.val fun k =>
      { k with winEnd := s.rc + 30, extraEnd := s.rc + 30, lastWin := s.rc,
               queue := k.queue.map fun q => { q with refresh := true } }
    s.modCellar (st.val / 2) fun c => { c with extraWin := satAdd c.extraWin 1 }

/-- A temperature in 1/16 of a degree C. -/
def tempOf (t : BitVec 12) : Int := signed t.toNat 12

/-- The threshold of a refresh level in 1/16 of a degree C (R478). [DEDUCED: log 60.] -/
def levelAt (n : Nat) : Int := if n = 1 then 1360 else 1520

/-- REFRESH_LEVEL_EVAL (R479). [DESIGN CHOICE: log 20.] -/
def refreshLevelEval (st : StackId) (s : State) : State :=
  let k := s.stack st.val
  let t := tempOf k.temp
  let top := if t ≥ levelAt 2 then 2 else if t ≥ levelAt 1 then 1 else 0
  let new := if top < k.level && decide (t > levelAt k.level - 32) then k.level else top
  if !(s.stackUp st) then s else s.modStack st.val fun k => { k with level := new }

/-- STACK_TEMP_READ (R465). [DESIGN CHOICE: log 20.] -/
def stackTempRead (st : StackId) (temp : BitVec 12) (s : State) : State :=
  if !(s.stackUp st) then s else s.modStack st.val fun k => { k with temp := temp }

/-! ## Scrubbing (R484, R485) -/

/-- The HBM address of codeword `i` of a stack (R470). -/
def scrubAddr (st i : Nat) : Nat :=
  let g := i / 64
  let low := st.xor ((g % 8).xor (g / 8 % 8))
  g * 0x8000 + low * 0x1000 + i % 64 * 64

/-- The rc of a scrub period of `h` hours (R6: one rc is 10 ns). [DESIGN CHOICE: log 61.] -/
def scrubPeriod (h : Nat) : Nat := h * 360000000000

/-- HBM_SCRUB_STEP: with the queue empty and no window open the scrubber reads its next codeword, and rewrites a corrected
one. [DESIGN CHOICE: log 61.] -/
def hbmScrubStep (st : StackId) (s : State) : State :=
  let k := s.stack st.val
  let cel := st.val / 2
  if !(s.stackUp st) || !k.trained || !k.queue.isEmpty || decide (s.rc < k.winEnd) || decide (s.rc < k.scrubFrom) then s
  else
    let addr := scrubAddr st.val k.scrub
    let x := s.readCheck s.mem addr 64 (srcWord 9 s.ownRank.toNat 0x7F 0 0)
    let s := x.2
    let s := if x.1 then s else { s with mem := { s.mem with hbmSbe := sput s.mem.hbmSbe (addr / 64) 0#1 } }
    let last := decide (k.scrub + 1 = 2 ^ 30)
    let hours := (s.mem.cellars.toList.getD cel default).hours.toNat
    s.modStack st.val fun k =>
      { k with
        scrub := if last then 0 else k.scrub + 1
        passes := if last then k.passes + 1 else k.passes
        scrubFrom := if last then k.scrubFrom + scrubPeriod hours else k.scrubFrom }

/-- SCRUB_BEHIND: a pass is not complete at the end of its period, and continues in the next. [DESIGN CHOICE: log 61.] -/
def scrubBehind (c : CellarId) (s : State) : State :=
  let k := s.mem.cellars[c.val]
  let late (t : Stack) : Bool := t.trained && decide (t.scrubFrom + scrubPeriod k.hours.toNat ≤ s.rc)
  if !(bit s.thr.pwr.cellar c.val) || !(k.stk.toList.any late) then s
  else s.modCellar c.val fun k =>
    { k with behind := true
             stk := k.stk.map fun t =>
               if late t then { t with scrubFrom := t.scrubFrom + scrubPeriod k.hours.toNat } else t }

/-! ## Engines (R491 to R502) -/

/-- What an engine has read: the bytes with a mark on each that came poisoned. -/
abbrev Marked := List (BitVec 8 × Bool)

/-- The union of arrival bits of an engine's operation. -/
def State.engBits (s : State) (n : Nat) (xpose : Bool) (bits : BitVec 2) : State :=
  let f (e : Engine) : Engine := { e with cur := e.cur.map fun u => { u with bits := u.bits ||| bits } }
  s.modCellar n fun k => if xpose then { k with xpose := f k.xpose } else { k with gs := f k.gs }

/-- One read access of an engine, within one 256-byte line (R493, R500): withheld and suppressed reads return zero. -/
def engineRead (xpose : Bool) (n : Nat) (o : EngOp) (t : Stream) (comp : SMap 8) (m : Mem) (a len : Nat) (s : State) :
    Marked × State :=
  let tag := tagOf o.word
  let zeros : Marked := List.replicate len (0#8, false)
  if outsidePages t.haddr t.npage a len then (zeros, s.countFence o.room tag 0)
  else if !(s.hasRight a false) then (zeros, s.countSupp o.room tag 0)
  else if isComp a then
    if s.pal.fenced then (List.replicate len (0#8, true), s)
    else ((sgetRange comp a len).map fun b => (b, false), s)
  else
    let x := s.readCheck m a len (s.srcOf 5 o.room.val tag 0)
    ((m.bytes a len).map fun b => (b, x.1), x.2.engBits n xpose (chargeOf false (s.extraOpen (stackOf a))))

/-- A range of an engine's reads, line by line. -/
def engineReadRange (xpose : Bool) (n : Nat) (o : EngOp) (t : Stream) (comp : SMap 8) (m : Mem) (a len : Nat)
    (s : State) : Marked × State :=
  (linesOf a len).foldl (fun x l =>
    let lo := max a (256 * l)
    let hi := min (a + len) (256 * (l + 1))
    let y := engineRead xpose n o t comp m lo (hi - lo) x.2
    (x.1 ++ y.1, y.2)) ([], s)

/-- The granules of byte ranges (R770). -/
def granulesOf (rs : List (Nat × Nat)) : List Nat :=
  (rs.flatMap fun r => (List.range ((r.1 + r.2 - 1) / 4096 - r.1 / 4096 + 1)).map (r.1 / 4096 + ·)).eraseDups

/-- XPOSE (R495): the source is read, then every destination row is written. [DEDUCED: log 62.] -/
def xposeRun (n : Nat) (o : EngOp) (comp : SMap 8) (s : State) : State :=
  let src := streamOf o.desc
  let dst := streamOf o.desc2
  let e := esizeOf o.word
  let m := s.hbmView
  let x := (List.range src.nrows).foldl (fun (x : List Marked × State) i =>
    let y := engineReadRange true n o src comp m (src.haddr + i * src.hstride) src.rlen x.2
    (x.1 ++ [y.1], y.2)) ([], s)
  let s := (List.range dst.nrows).foldl (fun s j =>
    let row := x.1.flatMap fun r => (r.drop (j * e)).take e
    let a := dst.haddr + j * dst.hstride
    (linesOf a row.length).foldl (fun s l =>
      let lo := max a (256 * l)
      let hi := min (a + row.length) (256 * (l + 1))
      let part := (row.drop (lo - a)).take (hi - lo)
      engineWrite true n o dst comp lo (part.map (·.1)) (part.any (·.2)) s) s) x.2
  let done := granulesOf ((List.range src.nrows).map fun i => (src.haddr + i * src.hstride, src.rlen))
  s.modCellar n fun k => { k with xpose := { k.xpose with cur := k.xpose.cur.map fun u => { u with gran := done } } }

/-- The indices of a GATHER or SCATTER (R497). The value of an index that comes poisoned is a free value. -/
def engineIdx (n : Nat) (o : EngOp) (comp : SMap 8) (m : Mem) (s : State) : List Nat × State :=
  let t := streamOf o.desc
  let y := streamOf o.desc2
  let x := engineReadRange false n o y comp m y.haddr (4 * t.nrows) s
  let s := x.2
  let free := s.free
  let idx := (List.range t.nrows).map fun i =>
    let w := (x.1.drop (4 * i)).take 4
    if w.any (·.2) then (Config.freeWord (free + i)).toNat % 2 ^ 32 else leNat (w.map (·.1))
  (idx, if x.1.any (·.2) then { s with free := s.free + t.nrows } else s)

/-- GATHER (R498): every row's lines become arrivals of the Room. [DEDUCED: log 62.] -/
def gatherRun (n : Nat) (o : EngOp) (comp : SMap 8) (s : State) : State :=
  let t := streamOf o.desc
  let m := s.hbmView
  let x := engineIdx n o comp m s
  let src := s.srcOf 5 o.room.val (tagOf o.word) 0
  let rows := indexed x.1
  let s := rows.foldl (fun s i =>
    (List.range (t.rlen / 256)).foldl (fun s j =>
      let a := t.haddr + i.2 * t.hstride + 256 * j
      let y := engineRead false n o t comp m a 256 s
      let arr : Arr :=
        { kind := .gather n, line := t.pbase / 256 + (i.1 * t.pstride + 256 * j) / 256, data := y.1.map (·.1),
          mask := fullMask, poison := if y.1.any (·.2) then BitVec.allOnes 32 else 0, retried := false,
          refresh := s.extraOpen (stackOf a) && !(isComp a), src := src, srank := 0, sroom := 0, fab := false,
          bs := false }
      y.2.modRoom o.room (·.arrive arr)) s) x.2
  let done := granulesOf (rows.map fun i => (t.haddr + i.2 * t.hstride, t.rlen))
  s.modCellar n fun k => { k with gs := { k.gs with cur := k.gs.cur.map fun u =>
    { u with out := rows.length * (t.rlen / 256), gran := done } } }

/-- SCATTER (R499): the lines to be read, each with the address it goes to. [DEDUCED: log 62.] -/
def scatterRun (n : Nat) (o : EngOp) (comp : SMap 8) (s : State) : State :=
  let t := streamOf o.desc
  let x := engineIdx n o comp s.hbmView s
  let rows := (indexed x.1).flatMap fun i => (List.range (t.rlen / 256)).map fun j =>
    (t.haddr + i.2 * t.hstride + 256 * j, t.pbase / 256 + (i.1 * t.pstride + 256 * j) / 256)
  x.2.modCellar n fun k => { k with gs := { k.gs with cur := k.gs.cur.map fun u => { u with rows := rows } } }

/-- The engine of a Cellar. -/
def Cellar.engine (k : Cellar) (e : EngineKind) : Engine :=
  match e with
  | .transpose => k.xpose
  | .gatherScatter => k.gs

def Cellar.setEngine (k : Cellar) (e : EngineKind) (x : Engine) : Cellar :=
  match e with
  | .transpose => { k with xpose := x }
  | .gatherScatter => { k with gs := x }

/-- ENGINE_OP_START: the engine takes the oldest operation of its queue (R492). [DEDUCED: log 62.] -/
def engineOpStart (c : CellarId) (e : EngineKind) (comp : SMap 8) (s : State) : State :=
  let k := s.mem.cellars[c.val]
  match (k.engine e).cur, (k.engine e).queue with
  | none, o :: rest =>
    if !(bit s.thr.pwr.cellar c.val) then s
    else
      let u : EngRun := { op := o, rows := [], out := 0, cmps := 0, bits := 0, gran := [] }
      let s := s.modCellar c.val fun k => k.setEngine e { queue := rest, cur := some u }
      if o.op = 8 then xposeRun c.val o comp s
      else if o.op = 9 then gatherRun c.val o comp s
      else scatterRun c.val o comp s
  | _, _ => s

/-- ENGINE_OP_COMPLETE (R501): nothing of the operation is outstanding. -/
def engineOpComplete (c : CellarId) (e : EngineKind) (s : State) : State :=
  match (s.mem.cellars[c.val].engine e).cur with
  | none => s
  | some u =>
    if !u.rows.isEmpty || u.out ≠ 0 || u.cmps ≠ 0 then s
    else
      let s := s.modCellar c.val fun k =>
        { k.setEngine e { k.engine e with cur := none } with opsDone := satAdd k.opsDone 1 }
      let r := u.op.room
      match (s.room r).dw.eng with
      | none => s
      | some g =>
        let s := s.modRoom r fun rm => { rm with dw := { rm.dw with eng := none } }
        if g.dlen then s.latchArrive r g.dlatch g.dgen 1 u.bits (s.srcOf 5 r.val g.tag 0) none else s

/-! ## The commands -/

def execHbmRequestArrive (id : Nat) (s : State) : Host.Outcome State Fault Refusal := s.done (hbmRequestArrive id s)
def execHbmRequestBegin (st : StackId) (s : State) : Host.Outcome State Fault Refusal := s.done (hbmRequestBegin st s)
def execFixedRefreshWindow (s : State) : Host.Outcome State Fault Refusal := s.done (fixedRefreshWindow s)
def execExtraRefreshWindow (st : StackId) (s : State) : Host.Outcome State Fault Refusal := s.done (extraRefreshWindow st s)
def execRefreshLevelEval (st : StackId) (s : State) : Host.Outcome State Fault Refusal := s.done (refreshLevelEval st s)
def execStackTempRead (st : StackId) (temp : BitVec 12) (s : State) : Host.Outcome State Fault Refusal :=
  s.done (stackTempRead st temp s)
def execHbmScrubStep (st : StackId) (s : State) : Host.Outcome State Fault Refusal := s.done (hbmScrubStep st s)
def execScrubBehind (c : CellarId) (s : State) : Host.Outcome State Fault Refusal := s.done (scrubBehind c s)
def execEngineOpStart (c : CellarId) (e : EngineKind) (comp : SMap 8) (s : State) : Host.Outcome State Fault Refusal :=
  s.done (engineOpStart c e comp s)
def execEngineOpComplete (c : CellarId) (e : EngineKind) (s : State) : Host.Outcome State Fault Refusal :=
  s.done (engineOpComplete c e s)

end Sys2Proof.Machine
end

