-- ==== Sys2Proof/Machine/Fabric.lean ====
section
/-! DEFINITION. The Esliosh fabric (chapter 12): ports and their retry, routing, the back stair, injection, ejection and
order tracking. -/

namespace Sys2Proof.Machine

/-! ## Fault codes (R752) -/

def fcUnreach : Nat := 0x7001
def fcRankInvalid : Nat := 0x7002
def fcPacket : Nat := 0x7003
def fcLinkRetrain : Nat := 0x7004
def fcLinkLost : Nat := 0x7005
def fcPortFenced : Nat := 0x7006
def fcMiswired : Nat := 0x7007
def fcCollRoute : Nat := 0x700B
def fcCollStale : Nat := 0x700C
def fcCollField : Nat := 0x700D

/-- The two words of a header as body items (R649). -/
def hdrWords (h : BitVec 128) : List (BitVec 64) := [h.extractLsb' 0 64, h.extractLsb' 64 64]

/-- A report of a Porch. [DESIGN CHOICE: log 31.] -/
def State.porchFault (s : State) (code cls : Nat) (tag : BitVec 16) (lroom : Nat) (body : List (BitVec 64)) : State :=
  let wing := if lroom < 96 then BitVec.ofNat 2 (wingOf (roomIdOf lroom)).val else 0#2
  s.report { code := BitVec.ofNat 16 code, cls := BitVec.ofNat 2 cls, lroom := BitVec.ofNat 7 lroom, wing := wing,
             src := 3#4, tag := tag, body := body, lost := false }

/-- The package number of a port of a Porch (R578). -/
def portNo (p : PorchId) (n : Nat) : Nat := 16 * p.val + n

/-! ## Ports: retry, retrain, bring-up (R617 to R622) -/

/-- A port retrains (R620), and is fenced at the fourth retrain within 1,000,000,000 rc (R621). [DESIGN CHOICE: log 58.] -/
def retrainPort (p : PorchId) (n : Nat) (s : State) : State :=
  let q := (s.porch p).port n
  let times := q.retrainAt.filter (fun t => decide (s.rc < t + 1000000000)) ++ [s.rc]
  let fence := decide (times.length ≥ 4)
  let no := BitVec.ofNat 64 (portNo p n)
  let s := s.modPorch p fun x => x.setPort n
    { q with live := false, retraining := !fence, fenced := fence, retrains := satAdd q.retrains 1, retrainAt := times,
             downSince := s.rc, lost := false, replayAt := [] }
  let s := s.porchFault fcLinkRetrain 0 0 0x7F [no, q.replays.zeroExtend 64]
  if fence then s.porchFault fcPortFenced 0 0 0x7F [no, (satAdd q.retrains 1).zeroExtend 64] else s

/-- The slots of a series after an acknowledged number (R618), those up to it removed. -/
def Series.ack (q : Series) (a : BitVec 8) : Series :=
  match q.unacked.findIdx? (fun u => u.1 == a) with
  | some i => { q with unacked := q.unacked.drop (i + 1) }
  | none => q

/-- Every slot not yet acknowledged is replayed with RETRIED set (R618). -/
def Series.replay (q : Series) : Series :=
  { q with unacked := q.unacked.map fun u => (u.1, { u.2 with hdr := setField u.2.hdr 28 1 1 }) }

/-- What a bring-up finds of a port (R619, R622): is it live, and is it miswired? A mirror port exchanges mirror identity
(R759). -/
def Port.upResult (q : Port) (b : PortBringUp) : Bool × Bool :=
  let right := if q.mirror then b.mirror else !b.mirror && b.partDim == q.dim && b.partDir != q.dir
  (b.trained && right && decide (b.rtt ≤ 112), b.trained && !right)

/-- The bring-up of a port ends (R622, R623). -/
def bringUpPort (p : PorchId) (n : Nat) (b : PortBringUp) (s : State) : State :=
  let q := (s.porch p).port n
  let u := q.upResult b
  let s := s.modPorch p fun x => x.setPort n
    { q with live := u.1, retraining := false, lost := q.lost && !u.1, downSince := if q.live then s.rc else q.downSince,
             delay := if u.1 then b.delay else q.delay, rtt := b.rtt }
  if u.2 then
    s.porchFault fcMiswired 0 0 0x7F [BitVec.ofNat 64 (portNo p n), b.partner, b.partDim.zeroExtend 64,
      BitVec.ofNat 64 (b2n b.partDir)]
  else s

/-- The header of a packet as it leaves on a port (R584, R598, R617): AGE, the sequence fields and the credits returned. -/
def Port.txHdr (q : Port) (ser : Series) (h : BitVec 128) : BitVec 128 :=
  let h := setField (setField h 0 8 ser.next.toNat) 8 8 (ser.expect - 1).toNat
  let h := setField h 16 1 (b2n ser.nak)
  let h := setField (setField h 17 1 (b2n (decide (q.crb[0] > 0)))) 18 1 (b2n (decide (q.crb[1] > 0)))
  setField (setField h 19 1 (b2n (decide (q.crs[0] > 0)))) 20 1 (b2n (decide (q.crs[1] > 0)))

/-- The credits returned leave with the slot. -/
def Port.paid (q : Port) : Port := { q with crb := q.crb.map (· - 1), crs := q.crs.map (· - 1) }

/-- A packet leaves on a port in a data slot (R598, R617). -/
def sendPort (p : PorchId) (n : Nat) (k : Pkt) (s : State) : State :=
  let q := (s.porch p).port n
  let h := q.txHdr q.dser (setField k.hdr 67 5 (min (pktAge k.hdr + 1) 31))
  let ser := { q.dser with next := q.dser.next + 1, unacked := q.dser.unacked ++ [(q.dser.next, { k with hdr := h })] }
  let s := s.modPorch p fun x => x.setPort n { q.paid with dser := ser }
  if ser.unacked.length ≥ 128 then retrainPort p n s else s

/-- A Stairwell message leaves a port while its lane holds a credit (R624). -/
def Port.stwPump (q : Port) : List Pkt → List Pkt → Port
  | kept, [] => { q with stwOut := kept }
  | kept, k :: t =>
    let lane := pktLane k.hdr
    let cred := q.stwCred.toList.getD lane 0
    if q.live && decide (cred > 0) && decide (q.sser.unacked.length < 128) then
      let h := q.txHdr q.sser k.hdr
      let ser := { q.sser with next := q.sser.next + 1, unacked := q.sser.unacked ++ [(q.sser.next, { k with hdr := h })] }
      let q := { q.paid with sser := ser }
      Port.stwPump { q with stwCred := if h : lane < 2 then q.stwCred.set lane (cred - 1) else q.stwCred } kept t
    else Port.stwPump q (kept ++ [k]) t

/-- A Stairwell message is given to a package port. -/
def stwSend (no : Nat) (k : Pkt) (s : State) : State :=
  s.modPorch (if no < 16 then 0 else 1) fun x => x.modPort (no % 16) fun q => q.stwPump [] (q.stwOut ++ [k])

/-! ## Routes (R595, R603) -/

/-- The live ports of a dimension and direction, by package number. -/
def State.livePorts (s : State) (d : Nat) (dir : Bool) : List Nat :=
  (List.range 32).filter fun no =>
    let q := (s.porch (if no < 16 then 0 else 1)).port (no % 16)
    q.live && !q.mirror && q.dim.toNat == d && q.dir == dir

/-- The distance to a rank in a dimension. -/
def Porch.delta (x : Porch) (own rank d : Nat) : Nat :=
  let n := x.dimSize d
  (x.coord rank d + n - x.coord own d % n) % n

/-- The direction of a dimension (+ is false) and its live ports, the other direction where there is none. -/
def State.dirPorts (s : State) (x : Porch) (own rank d : Nat) : Bool × List Nat :=
  let dir := !(decide (x.delta own rank d ≤ x.dimSize d / 2))
  let ps := s.livePorts d dir
  if ps.isEmpty then (!dir, s.livePorts d (!dir)) else (dir, ps)

/-- The productive ports of this Porch, and whether the bridge is productive; none when the rank is unreachable. -/
def State.productive (s : State) (p : PorchId) (rank : Nat) : Option (List Nat × Bool) :=
  let x := s.porch p
  let own := s.ownRank.toNat
  [0, 1, 2, 3].foldl (fun (acc : Option (List Nat × Bool)) d =>
    match acc with
    | none => none
    | some a =>
      if x.delta own rank d = 0 then some a
      else
        let ps := (s.dirPorts x own rank d).2
        if ps.isEmpty then none
        else some (a.1 ++ (ps.filter fun no => no / 16 == p.val).map (· % 16), a.2 || ps.any fun no => no / 16 != p.val))
    (some ([], false))

/-- The safe hop of a packet: the package port and its lane. `prev` is the dimension it came along. -/
def State.safeHop (s : State) (h : BitVec 128) (prev : Option Nat) : Option (Nat × Nat) :=
  let x := s.porch 0
  let own := s.ownRank.toNat
  let rank := (pktDrank h).toNat
  match [0, 1, 2, 3].find? fun d => x.delta own rank d != 0 with
  | none => none
  | some d =>
    let y := s.dirPorts x own rank d
    let c := x.coord own d
    let wrap := if y.1 then c == 0 else c + 1 == x.dimSize d
    let lane := if prev = some d then pktLane h else 0
    y.2.head?.map fun no => (no, if wrap then 1 else lane)

/-! ## Leaving and arriving -/

/-- Is a port's data slot free for this packet: named free, live, and not a mirror port. -/
def State.portOpen (s : State) (p : PorchId) (free : BitVec 24) (n : Nat) : Bool :=
  let q := (s.porch p).port n
  decide (n < 16) && bit free n && q.live && !q.mirror && decide (q.dser.unacked.length < 128)

/-- The first free bridge lane. -/
def bridgeLane (free : BitVec 24) : Option Nat := (List.range 8).find? fun i => bit free (16 + i)

/-- A packet crosses the bridge. -/
def sendBridge (p : PorchId) (lane : Nat) (k : Pkt) (s : State) : State :=
  let k := { k with hdr := setField k.hdr 67 5 (min (pktAge k.hdr + 1) 31) }
  s.modPorch (otherPorch p) fun x => { x with inq := x.inq ++ [(16 + lane, k)] }

/-- A packet that waits at the destination Porch for its own step. -/
def toQueue (k : Nat) : Bool := k == kCredit || k == kAck || k == kCollUp || k == kCollDn

/-- The home Porch of a packet's destination Room (R594). -/
def destPorch (h : BitVec 128) : PorchId := homePorch (roomIdOf (pktDroom h).toNat)

/-- Can the packet's destination take it (R596, R641)? The crossing buffers hold 16 packets for each Wing (R96). [DESIGN CHOICE: log 63; DEDUCED: log 67.] -/
def State.ejectFree (s : State) (p : PorchId) (h : BitVec 128) : Bool :=
  let r := roomIdOf (pktDroom h).toNat
  let ofWing (k : Pkt) : Bool := wingOf (roomIdOf (pktDroom k.hdr).toNat) == wingOf r
  if toQueue (pktKind h) then !(s.collBusy p h)
  else (s.room r).bufFree && decide ((((s.porch p).cross).filter ofWing).length < 16)

/-- A packet is ejected (R646). -/
def eject (p : PorchId) (k : Pkt) (s : State) : State :=
  s.modPorch p fun x =>
    let x := { x with ejected := x.ejected + 1 }
    if toQueue (pktKind k.hdr) then { x with ejq := x.ejq ++ [k] } else { x with cross := x.cross ++ [k] }

/-- A back-stair packet on its way through this Porch (R603 to R606): the state after it has moved one place, or none
while its next place is full. [DESIGN CHOICE: log 65.] -/
def State.bsMove (s : State) (p : PorchId) (k : Pkt) (prev : Option Nat) : Option State :=
  let x := s.porch p
  if pktDrank k.hdr = s.ownRank then
    if toQueue (pktKind k.hdr) then (if s.collBusy p k.hdr then none else some (eject p k s))
    else if destPorch k.hdr = p then
      let r := (pktDroom k.hdr).toNat
      if x.resv.any fun e => e.1 == r then none
      else some (s.setPorch p { x with resv := x.resv ++ [(r, k)], ejected := x.ejected + 1 })
    else if (x.bridge[0]).length < 4 then
      some (s.setPorch p { x with bridge := x.bridge.set 0 (x.bridge[0] ++ [{ k with hdr := setField k.hdr 27 1 0 }]) })
    else none
  else
    match s.safeHop k.hdr prev with
    | none => none
    | some (no, lane) =>
      let k := { k with hdr := setField (setField k.hdr 26 1 1) 27 1 lane }
      if no / 16 = p.val then
        let q := x.port (no % 16)
        let buf := q.bsOut.toList.getD lane []
        if buf.length ≥ 2 then none
        else some (s.setPorch p (x.setPort (no % 16)
          { q with bsOut := if h : lane < 2 then q.bsOut.set lane (buf ++ [k]) else q.bsOut }))
      else
        let buf := x.bridge.toList.getD lane []
        if buf.length ≥ 4 then none
        else some (s.setPorch p { x with bridge := if h : lane < 2 then x.bridge.set lane (buf ++ [k]) else x.bridge })

/-! ## A routing step (R597 to R605) -/

/-- The oldest back-stair packet of an output that can leave (R604, R605). -/
def State.bsReady (s : State) (p : PorchId) (free : BitVec 24) : Option (Nat × Nat × Pkt) :=
  let x := s.porch p
  let cands := (List.range 16).flatMap fun n => [0, 1].filterMap fun lane =>
    let q := x.port n
    match (q.bsOut.toList.getD lane []).head? with
    | some k => if s.portOpen p free n && decide (q.bsCred.toList.getD lane 0 > 0) then some (n, lane, k) else none
    | none => none
  cands.foldl (fun (best : Option (Nat × Nat × Pkt)) c => match best with
    | none => some c
    | some b => if pktAge b.2.2.hdr < pktAge c.2.2.hdr then some c else some b) none

/-- A back-stair packet leaves its output buffer on a credit. -/
def sendBs (p : PorchId) (n lane : Nat) (k : Pkt) (s : State) : State :=
  let s := s.modPorch p fun x => x.modPort n fun q =>
    if h : lane < 2 then
      { q with bsOut := q.bsOut.set lane ((q.bsOut[lane]).drop 1), bsCred := q.bsCred.set lane (q.bsCred[lane] - 1) }
    else q
  sendPort p n k s

/-- A back-stair packet of the bridge enters the other Porch. -/
def State.bsBridge (s : State) (p : PorchId) : Option State :=
  [0, 1].findSome? fun lane =>
    match ((s.porch p).bridge.toList.getD lane []).head? with
    | none => none
    | some k =>
      let k := { k with hdr := setField k.hdr 67 5 (min (pktAge k.hdr + 1) 31) }
      let prev := ([0, 1, 2, 3].find? fun d => (s.porch p).delta s.ownRank.toNat (pktDrank k.hdr).toNat d != 0)
      (s.bsMove (otherPorch p) k prev).map fun s => s.modPorch p fun x =>
        { x with bridge := if h : lane < 2 then x.bridge.set lane ((x.bridge[lane]).drop 1) else x.bridge }

/-- A back-stair packet that arrived at a port moves on, and its place is returned as a credit (R604). -/
def State.bsInput (s : State) (p : PorchId) : Option State :=
  (List.range 16).findSome? fun n => [0, 1].findSome? fun lane =>
    let q := (s.porch p).port n
    match (q.bsIn.toList.getD lane []).head? with
    | none => none
    | some k => (s.bsMove p k (some q.dim.toNat)).map fun s => s.modPorch p fun x => x.modPort n fun q =>
        if h : lane < 2 then { q with bsIn := q.bsIn.set lane ((q.bsIn[lane]).drop 1), crb := q.crb.set lane (q.crb[lane] + 1) }
        else q

/-- One step of the back stair. -/
def State.bsStep (s : State) (p : PorchId) (free : BitVec 24) : Option State :=
  let calm := decide ((s.porch p).hold.length < 6)
  let out := if calm then (s.bsReady p free).map fun c => sendBs p c.1 c.2.1 c.2.2 s else none
  let br := if calm && (bridgeLane free).isSome then s.bsBridge p else none
  (out.orElse fun _ => br).orElse fun _ => s.bsInput p

/-- An aged packet enters the back stair (R602). -/
def State.bsEnter (s : State) (p : PorchId) (k : Pkt) : Option State :=
  if decide (pktAge k.hdr ≥ (s.porch p).bsAge) && pktDrank k.hdr != s.ownRank && !(pktBs k.hdr) then
    (s.bsMove p { k with hdr := setField k.hdr 27 1 0 } none).map fun s =>
      s.modPorch p fun x => { x with bsEntries := x.bsEntries + 1 }
  else none

/-- A packet on a productive output (R595); with `deflect`, on any other free one. `none` when no output is free. -/
def State.place (s : State) (p : PorchId) (free : BitVec 24) (k : Pkt) (deflect : Bool) : Option State :=
  let bridge := (bridgeLane free).map fun l => sendBridge p l k s
  let count (s : State) : State := s.modPorch p fun x => { x with deflected := x.deflected + 1 }
  let stray : Option State :=
    if !deflect then none
    else match (List.range 16).find? (s.portOpen p free) with
      | some n => some (count (sendPort p n k s))
      | none => bridge.map count
  if pktDrank k.hdr = s.ownRank then
    if destPorch k.hdr = p then
      if s.ejectFree p k.hdr then some (eject p k s) else stray
    else bridge.orElse fun _ => stray
  else match s.productive p (pktDrank k.hdr).toNat with
    | none =>
      let s := s.porchFault fcUnreach 0 (pktTag k.hdr) 0x7F [(pktSrank k.hdr).zeroExtend 64, (pktSroom k.hdr).zeroExtend 64,
        (pktDrank k.hdr).zeroExtend 64, (pktDroom k.hdr).zeroExtend 64, BitVec.ofNat 64 (pktKind k.hdr)]
      some (s.modPorch p fun x => { x with unreach := satAdd x.unreach 1, ejected := x.ejected + 1 })
    | some (ps, far) =>
      match ps.find? (s.portOpen p free) with
      | some n => some (sendPort p n k s)
      | none => (if far then bridge else none).orElse fun _ => stray

/-- An arriving packet that finds neither an output nor the hold buffer (R600). On a bridge lane it keeps its place. -/
def refuse (p : PorchId) (input : Nat) (s : State) : State :=
  if input ≥ 16 then s
  else s.modPorch p fun x =>
    let n := (x.inq.filter fun e => e.1 == input).length
    let x := x.modPort input fun q =>
      { q with dser := { q.dser with expect := q.dser.expect - BitVec.ofNat 8 n, nak := true }
               replays := satAdd q.replays n }
    { x with inq := x.inq.filter fun e => e.1 != input, refusals := satAdd x.refusals 1 }

/-- The arriving packets of a round in the order of R597: by AGE descending, then by input. -/
def inOrder (l : List (Nat × Pkt)) : List (Nat × Pkt) :=
  l.foldl (fun acc e =>
    let before (a : Nat × Pkt) : Bool :=
      decide (pktAge a.2.hdr > pktAge e.2.hdr) || (pktAge a.2.hdr == pktAge e.2.hdr && decide (a.1 ≤ e.1))
    acc.takeWhile before ++ e :: acc.dropWhile before) []

/-- The first packet of the hold buffer that can move. -/
def State.holdStep (s : State) (p : PorchId) (free : BitVec 24) : Option State :=
  (indexed (s.porch p).hold).findSome? fun e =>
    let out (s : State) : State := s.modPorch p fun x => { x with hold := x.hold.eraseIdx e.1 }
    ((s.bsEnter p e.2).orElse fun _ => s.place p free e.2 true).map out

/-- The next arriving packet of the round is placed, held or refused. -/
def State.inStep (s : State) (p : PorchId) (free : BitVec 24) : Option State :=
  match inOrder (s.porch p).inq with
  | [] => none
  | e :: _ =>
    let out (s : State) : State := s.modPorch p fun x => { x with inq := delFirst (fun y => decide (y = e)) x.inq }
    match (s.bsEnter p e.2).orElse fun _ => s.place p free e.2 true with
    | some t => some (out t)
    | none =>
      if (s.porch p).hold.length < 8 then
        some ((out s).modPorch p fun x =>
          let hold := x.hold ++ [e.2]
          { x with hold := hold, holdMax := BitVec.ofNat 8 (max x.holdMax.toNat hold.length) })
      else some (refuse p e.1 s)

/-- The first live port of a Porch. -/
def Porch.firstLive (x : Porch) : Option Nat := (List.range 16).find? fun n => (x.port n).live && !(x.port n).mirror

/-- The CREDIT packet of a Room's credit entry (R551, R586). -/
def creditPkt (own : BitVec 12) (r : RoomId) (d : Dep) : Pkt :=
  let whom := d.copies.headD (0, 0)
  barePkt (pktHdr kCredit false false whom.1 whom.2.toNat own r.val 0 0 (pack [(0, 13, d.lat.toNat), (13, 2, d.addr)]))

/-- A packet whose destination rank is not in the job is discarded before injection (R649). -/
def State.rankInvalid (s : State) (r : Nat) (tag : BitVec 16) (rank : BitVec 12) : State :=
  s.porchFault fcRankInvalid 0 tag r [rank.zeroExtend 64]

/-- An injection that needs no tracker, with the state that no longer holds it. [DESIGN CHOICE: log 65.] -/
def State.injections (s : State) (p : PorchId) : List (Pkt × State) :=
  let x := s.porch p
  let rets := match x.returns with
    | k :: t => [(k, s.setPorch p { x with returns := t })]
    | [] => []
  let acks := match x.ackOut with
    | k :: t => [(k, s.setPorch p { x with ackOut := t })]
    | [] => []
  let creds := (allRooms.filter fun r => homePorch r == p).filterMap fun r =>
    match (s.room r).out.credits with
    | d :: t => some (creditPkt s.ownRank r d, s.modRoom r fun rm => { rm with out := { rm.out with credits := t } })
    | [] => none
  let colls := match x.collOut with
    | k :: t => [(k, s.setPorch p { x with collOut := t })]
    | [] => []
  rets ++ creds ++ acks ++ colls

/-- An injected packet is placed, or meets FAB_RANK_INVALID; a returned back-stair packet leaves by R607. [DESIGN CHOICE: log 65.] -/
def State.inject (s : State) (p : PorchId) (free : BitVec 24) (e : Pkt × State) : Option State :=
  let k := e.1
  let count (s : State) : State := s.modPorch p fun x => { x with injected := x.injected + 1 }
  if !((s.porch p).rankOk (pktDrank k.hdr).toNat) then
    some (e.2.rankInvalid (pktSroom k.hdr).toNat (pktTag k.hdr) (pktDrank k.hdr))
  else if pktBs k.hdr then
    match (s.porch p).firstLive with
    | none => none
    | some n =>
      let q := (s.porch p).port n
      if (q.bsOut[0]).length ≥ 2 then none
      else some (count (e.2.modPorch p fun x => x.modPort n fun q =>
        { q with bsOut := q.bsOut.set 0 (q.bsOut[0] ++ [{ k with hdr := setField k.hdr 27 1 0 }]) }))
  else (e.2.place p free k false).map count

/-- The next injection of R601 items 1 to 3. -/
def State.injectStep (s : State) (p : PorchId) (free : BitVec 24) : Option State :=
  (s.injections p).findSome? (s.inject p free)

/-- ROUTER_PACKET_ROUTE: the next packet of the round, back stair first, then the hold buffer, the arriving packets and
the injections. [DESIGN CHOICE: log 63.] -/
def routerPacketRoute (p : PorchId) (free : BitVec 24) (s : State) : State :=
  let next := (((s.bsStep p free).orElse fun _ => s.holdStep p free).orElse fun _ => s.inStep p free).orElse
    fun _ => s.injectStep p free
  next.getD s

/-! ## Departures (R601, R613 to R615) -/

/-- An entry leaves the departure buffer; a wait for a place ends (R353 item 3). -/
def State.departed (s : State) (r : RoomId) : State :=
  let waits (f : Frz) : Bool := match f with
    | .depart _ => true
    | _ => false
  let any := (s.room r).frz.any waits
  let s := s.modRoom r fun rm =>
    { rm with out := { rm.out with buf := rm.out.buf.drop 1 }, frz := rm.frz.filter fun f => !waits f }
  if any then s.modWing (wingOf r) fun g => { g with held := true } else s

/-- Must the head of a departure buffer wait (R614)? -/
def Room.flagWait (rm : Room) (d : Dep) : Bool :=
  d.flag && d.copies.any fun c => rm.out.trk.any fun t => t.drank == c.1 && t.droom == c.2 && t.count != 0

def Room.trkWait (rm : Room) (d : Dep) : Bool :=
  match d.copies with
  | c :: _ => !(rm.out.trk.any fun t => t.drank == c.1 && t.droom == c.2) && decide (rm.out.trk.length ≥ 16)
  | [] => false

/-- One more packet on the tracker of a destination (R613). -/
def Out.track (o : Out) (rank : BitVec 12) (room : BitVec 7) : Out :=
  let mine (t : Tracker) : Bool := t.drank == rank && t.droom == room
  if o.trk.any mine then { o with trk := updFirst mine (fun t => { t with count := t.count + 1 }) o.trk }
  else { o with trk := o.trk ++ [{ drank := rank, droom := room, count := 1 }] }

/-- The packet of a departure entry to one destination (R585, R586). -/
def Dep.packet (d : Dep) (own : BitVec 12) (r : RoomId) (whom : BitVec 12 × BitVec 7) : Pkt :=
  match d.kind with
  | .msg =>
    let h := d.hdr
    let arg := pack [(0, 16, field h 0 16), (16, 4, field h 16 4), (20, 2, d.addr), (22, 1, b2n (bit h 30)),
      (23, 3, field h 51 3)]
    { hdr := pktHdr kMsg d.flag false whom.1 whom.2.toNat own r.val (field h 20 9) d.tag arg, data := d.data,
      mask := fullMask, poison := d.poison }
  | .inc => { barePkt (pktHdr kInc d.flag false whom.1 whom.2.toNat own r.val 0 d.tag d.lat.toNat) with poison := 0 }
  | _ =>
    { hdr := pktHdr kLine d.flag false whom.1 whom.2.toNat own r.val 256 d.tag (d.addr % 4096), data := d.data,
      mask := d.mask, poison := d.poison }

/-- The head of a departure buffer that goes to its collective engine (R637, R641). -/
def departColl (r : RoomId) (d : Dep) (s : State) : State :=
  let p := homePorch r
  let c := d.mch - 0x80
  let x := s.porch p
  let body := [BitVec.ofNat 64 c]
  if d.kind ≠ .line then (s.departed r).porchFault fcCollRoute 0 d.tag r.val body
  else
    let ctx := x.coll.toList.getD c default
    let ahead := (x.contrib.filter fun t => t.ctx == c).length
    let nlines := field ctx.entry 56 6 + 1
    if bit ctx.entry 0 && decide ((ctx.count + ahead) / nlines ≥ ctx.first + 2) then s
    else
      (s.departed r).modPorch p fun x =>
        { x with contrib := x.contrib ++ [{ ctx := c, room := r, tag := d.tag, line := d.addr, data := d.data }] }

/-- DEPARTURE_INJECT: the head of the Room's departure buffer. [DESIGN CHOICE: log 63.] -/
def departureInject (r : RoomId) (free : BitVec 24) (s : State) : State :=
  let rm := s.room r
  let p := homePorch r
  match rm.out.buf with
  | [] => s
  | d :: rest =>
    if d.tgt = 3 then
      let s := (s.departed r).smokeStale (d.addr + compBase) d.tag
      s.palReq (.outlet d.lat.toNat) 0x02 d.addr true d.data (d.poison != 0)
    else if d.tgt = 4 && decide (d.mch ≥ 0x80) then departColl r d s
    else
      match d.copies with
      | [] => s.departed r
      | whom :: more =>
        let drop (s : State) : State :=
          if more.isEmpty then s.departed r
          else s.modRoom r fun rm => { rm with out := { rm.out with buf := { d with copies := more } :: rest } }
        if !((s.porch p).rankOk whom.1.toNat) then (drop s).rankInvalid r.val d.tag whom.1
        else if rm.flagWait d || rm.trkWait d then s
        else
          match s.place p free (d.packet s.ownRank r whom) false with
          | none => s
          | some t =>
            let t := t.modPorch p fun x => { x with injected := x.injected + 1, lastWing := (wingOf r).val % 2 == 1 }
            drop (t.modRoom r fun rm => { rm with out := rm.out.track whom.1 whom.2 })

/-! ## Ejection (R606, R611) -/

/-- The arrival of an ejected packet. -/
def Pkt.arrival (k : Pkt) : Arr :=
  let h := k.hdr
  let arg := (pktArg h).toNat
  let kind := pktKind h
  { kind :=
      if kind = kMsg then
        .msg (nbits arg 20 2) (msgHeader (BitVec.ofNat 16 arg) (nbits arg 16 4) (pktPlen h) (nbits arg 22 1 == 1)
          (pktSrank h) (pktSroom h).toNat (nbits arg 23 3) (pktTag h))
      else if kind = kInc then .inc (nbits arg 0 6) (BitVec.ofNat 8 (nbits arg 6 8)) (BitVec.ofNat 16 (nbits arg 14 16))
      else .data
    line := nbits arg 0 12, data := slice k.data 0 256, mask := k.mask, poison := k.poison, retried := pktRetried h,
    refresh := false, src := pktSrc h, srank := pktSrank h, sroom := pktSroom h, fab := true, bs := pktBs h }

/-- A packet reaches its Room's arrival buffer, or is discarded there: under R843, or because the Room has no power (R113), and
then it counts as delivered (R611). [DEDUCED: log 66.] -/
def deliver (p : PorchId) (k : Pkt) (s : State) : State :=
  let d := (pktDroom k.hdr).toNat
  let r := roomIdOf d
  if pktKind k.hdr = kInc && decide (nbits (pktArg k.hdr).toNat 0 6 > 47) then
    let s := s.porchFault fcPacket 0 (pktTag k.hdr) r.val (0xFF#64 :: hdrWords k.hdr)
    s.countAck r (pktSrank k.hdr) (pktSroom k.hdr) (pktRetried k.hdr)
  else if d ≥ 96 then s
  else if !(s.room r).on then s.countAck r (pktSrank k.hdr) (pktSroom k.hdr) (pktRetried k.hdr)
  else if homePorch r = p then s.modRoom r (·.arrive k.arrival) else s

/-- PACKET_EJECT: the reserved entries come first (R606). [DESIGN CHOICE: log 63; DEDUCED: log 66.] -/
def packetEject (p : PorchId) (s : State) : State :=
  let x := s.porch p
  let okRoom (k : Pkt) : Bool := (s.room (roomIdOf (pktDroom k.hdr).toNat)).bufFree
  match x.resv.find? fun e => okRoom e.2 with
  | some e => deliver p e.2 (s.setPorch p { x with resv := delFirst (fun y => decide (y = e)) x.resv })
  | none =>
    let running (k : Pkt) : Bool := (s.wing (wingOf (roomIdOf (pktDroom k.hdr).toNat))).clockOn
    match x.cross.find? fun k => okRoom k && running k with
    | some k => deliver p k (s.setPorch p { x with cross := delFirst (fun y => decide (y = k)) x.cross })
    | none => s

/-- ACK_RECEIVE (R613): the tracker counts down, and an ACK that ends a wait charges its freeze (R614). -/
def ackReceive (r : RoomId) (drank : BitVec 12) (droom : BitVec 7) (count : BitVec 8) (retried : Bool) (s : State) : State :=
  let mine (t : Tracker) : Bool := t.drank == drank && t.droom == droom
  let isAck (k : Pkt) : Bool :=
    pktKind k.hdr == kAck && pktSrank k.hdr == drank && pktSroom k.hdr == droom && (pktDroom k.hdr).toNat == r.val
  let s := s.modPorch (homePorch r) fun x => { x with ejq := delFirst isAck x.ejq }
  let waits := (s.room r).frz.any fun f => match f with
    | .depart _ => true
    | _ => false
  let less (t : Tracker) : Tracker := { t with count := t.count - count.zeroExtend 16 }
  let s := s.modRoom r fun rm => { rm with out := { rm.out with
    trk := (updFirst mine less rm.out.trk).filter fun t => !(mine t && t.count == 0) } }
  if waits then s.modWing (wingOf r) fun g => { g with frzBits := some (chargeOf retried false) } else s

/-! ## Broadcasts of the Stairwell (R625) -/

/-- A broadcast hop from this package in a dimension and direction (true is −), from the lane it came on (none: a new
dimension). [DESIGN CHOICE: log 46.] -/
def stwHop (src : BitVec 12) (body : Bytes) (d : Nat) (dir : Bool) (rem : Nat) (lane : Option Nat) (s : State) : State :=
  let x := s.porch 0
  let c := x.coord s.ownRank.toNat d
  let wrap := if dir then c == 0 else c + 1 == x.dimSize d
  let ln := if wrap then 1 else lane.getD 0
  match (s.livePorts d dir).head? with
  | none => s
  | some no =>
    let h := setField (pktHdr kStw false false 0 0x7F src 0x7F body.length 0
      (pack [(0, 1, 1), (1, 2, d), (3, 1, b2n dir), (4, 6, rem)])) 27 1 ln
    stwSend no { hdr := h, data := body, mask := 0, poison := 0 } s

/-- spread(d0) of R625. [DESIGN CHOICE: log 46.] -/
def stwSpread (src : BitVec 12) (body : Bytes) (d0 : Nat) (s : State) : State :=
  ((List.range 4).filter fun d => decide (d0 ≤ d)).foldl (fun s d =>
    let n := (s.porch 0).dimSize d
    if n ≤ 1 then s
    else
      let s := stwHop src body d false (n / 2) none s
      if n - 1 - n / 2 > 0 then stwHop src body d true (n - 1 - n / 2) none s else s) s

/-- The forwarding of a broadcast message that arrived over the fabric (R625). [DESIGN CHOICE: log 46.] -/
def stwForward (k : Pkt) (body : Bytes) (s : State) : State :=
  let d := field k.hdr 98 2
  let dir := bit k.hdr 100
  let rem := field k.hdr 101 6
  let s := if rem > 1 then stwHop (pktSrank k.hdr) body d dir (rem - 1) (some (pktLane k.hdr)) s else s
  stwSpread (pktSrank k.hdr) body (d + 1) s

/-! ## Slots (R617, R618, R624) -/

/-- Has a header a reserved KIND or ARG bit, or LCTL outside frame slot 0 (R649)? [DESIGN CHOICE: log 64.] -/
def badPacket (frame : Nat) (h : BitVec 128) : Bool :=
  let k := pktKind h
  let used := if k = kLine then 12 else if k = kMsg then 26 else if k = kInc then 30 else if k = kCredit then 15
    else if k = kAck then 8 else if k = kCollUp || k = kCollDn then 18 else if k = kStw then 10 else 0
  decide (k ≥ 10) || (k == 9 && frame != 0) || field h (97 + used) (30 - used) != 0

/-- A replay request counts toward the 64 of R620. -/
def Port.askReplay (q : Port) (rc : Nat) : Port :=
  { q with replayAt := q.replayAt.filter (fun t => decide (rc < t + 100000)) ++ [rc] }

/-- Is the SOP of a Stairwell message one of R797? -/
def sopKnown (k : Pkt) : Bool := decide (1 ≤ getLE k.data 0 1) && decide (getLE k.data 0 1 ≤ 0x12)

/-- A delivered message with a reserved SOP raises FAB_PACKET (R797) unless R798 discards it; a broadcast is spread all the
same (R625). [DESIGN CHOICE: log 46.] -/
def stwReserved (n : Nat) (p : PorchId) (k : Pkt) (s : State) : State :=
  let w := { s.thr.stw with received := satAdd s.thr.stw.received 1 }
  if !((s.porch 0).rankOk (pktSrank k.hdr).toNat) then { s with thr := { s.thr with stw := { w with discard := true } } }
  else
    let s := { s with thr := { s.thr with stw := w } }
    let s := if bit (pktArg k.hdr) 0 then stwForward k (slice k.data 0 (pktPlen k.hdr)) s else s
    s.porchFault fcPacket 0 0 0x7F (BitVec.ofNat 64 (portNo p n) :: hdrWords k.hdr)

/-- Where a Stairwell message that has arrived goes: to the Threshold, or on along the safe route (R625). A broadcast is
delivered, and spread by its own step. [DESIGN CHOICE: log 64.] -/
def stwArrive (n : Nat) (p : PorchId) (k : Pkt) (s : State) : State :=
  let bcast := bit (pktArg k.hdr) 0
  if bcast || pktDrank k.hdr = s.ownRank then
    if !(sopKnown k) then stwReserved n p k s
    else { s with thr := { s.thr with stw := { s.thr.stw with inbox := s.thr.stw.inbox ++ [k] } } }
  else
    match s.safeHop k.hdr (some ((s.porch p).port n).dim.toNat) with
    | none => s
    | some (no, lane) => stwSend no { k with hdr := setField k.hdr 27 1 lane } s

/-- PORT_SLOT_RECEIVE. [DESIGN CHOICE: log 64.] -/
def portSlotReceive (no : PortId) (sl : Slot) (s : State) : State :=
  let p := porchOf no
  let n := portIn no
  let q := (s.porch p).port n
  let h := sl.header
  let frame := sl.frame.val
  let stw := frame == 32
  if !q.live || q.mirror || frame = 0 && sl.bad then s
  else if sl.bad then
    s.modPorch p fun x => x.modPort n fun q =>
      if stw then { q with sser := { q.sser with nak := true } } else { q with dser := { q.dser with nak := true } }
  else
    let q : Port :=
      { q with
        bsCred := Vector.ofFn fun (i : Fin 2) => q.bsCred[i.val] + b2n (bit h (17 + i.val))
        stwCred := Vector.ofFn fun (i : Fin 2) => q.stwCred[i.val] + b2n (bit h (19 + i.val)) }
    if frame = 0 then
      let s := s.modPorch p fun x => x.setPort n (q.stwPump [] q.stwOut)
      if badPacket 0 h && pktKind h ≠ 9 then s.porchFault fcPacket 0 0 0x7F (BitVec.ofNat 64 no.val :: hdrWords h) else s
    else
      let ser := if stw then q.sser else q.dser
      let nak := bit h 16
      let ser := ser.ack (h.extractLsb' 8 8)
      let ser := if nak then ser.replay else ser
      let q : Port := if nak then { q.askReplay s.rc with replays := satAdd q.replays ser.unacked.length } else q
      let idle := pktKind h == 0
      let inSeq := h.extractLsb' 0 8 == ser.expect
      let ser := if idle then ser else if inSeq then { ser with expect := ser.expect + 1, nak := false }
        else { ser with nak := true }
      let q : Port := if stw then { q with sser := ser } else { q with dser := ser }
      let s := s.modPorch p fun x => x.setPort n (q.stwPump [] q.stwOut)
      let s := if nak && decide (q.replayAt.length ≥ 64) then retrainPort p n s else s
      if !idle && !inSeq then s
      else if badPacket frame h then
        s.porchFault fcPacket 0 (pktTag h) 0x7F (BitVec.ofNat 64 no.val :: hdrWords h)
      else if idle then s
      else
        let k : Pkt := { hdr := h, data := slice sl.payload 0 256, mask := fullMask, poison := 0 }
        let lane := pktLane h
        if stw then
          if pktKind h ≠ kStw then s
          else
            let s := s.modPorch p fun x => x.modPort n fun q =>
              { q with crs := if h : lane < 2 then q.crs.set lane (q.crs[lane] + 1) else q.crs }
            stwArrive n p k s
        else if pktKind h = kStw then s
        else if pktBs h then
          s.modPorch p fun x => x.modPort n fun q =>
            { q with bsIn := if h : lane < 2 then q.bsIn.set lane (q.bsIn[lane] ++ [k]) else q.bsIn }
        else s.modPorch p fun x => { x with inq := x.inq ++ [(n, k)] }

/-- FAB_LINK_LOST (R621). -/
def fabLinkLost (no : PortId) (s : State) : State :=
  let p := porchOf no
  let n := portIn no
  let q := (s.porch p).port n
  if !q.enable || q.mirror || q.live || q.lost || decide (s.rc < q.downSince + s.linkLost) then s
  else
    let lostN := q.dser.unacked.length + q.sser.unacked.length
    let s := s.modPorch p fun x => x.setPort n
      { q with lost := true, dser := { q.dser with unacked := [] }, sser := { q.sser with unacked := [] } }
    s.porchFault fcLinkLost 1 0 0x7F [BitVec.ofNat 64 no.val, BitVec.ofNat 64 lostN]

/-- PORT_RETRAINING_END (R620): the port replays what its partner has not received. -/
def portRetrainingEnd (no : PortId) (b : PortBringUp) (aseq saseq : BitVec 8) (s : State) : State :=
  let p := porchOf no
  let n := portIn no
  if !((s.porch p).port n).retraining then s
  else
    let s := bringUpPort p n b s
    if !((s.porch p).port n).live then s
    else s.modPorch p fun x => x.modPort n fun q =>
      let d := (q.dser.ack aseq).replay
      let t := (q.sser.ack saseq).replay
      let q := { q with
        dser := { d with nak := false }, sser := { t with nak := false }
        replays := satAdd q.replays (d.unacked.length + t.unacked.length) }
      q.stwPump [] q.stwOut

/-! ## The commands -/

def execPortSlotReceive (p : PortId) (sl : Slot) (s : State) : Host.Outcome State Fault Refusal :=
  s.done (portSlotReceive p sl s)
def execFabLinkLost (p : PortId) (s : State) : Host.Outcome State Fault Refusal := s.done (fabLinkLost p s)
def execRouterPacketRoute (p : PorchId) (free : BitVec 24) (s : State) : Host.Outcome State Fault Refusal :=
  s.done (routerPacketRoute p free s)
def execDepartureInject (r : RoomId) (free : BitVec 24) (s : State) : Host.Outcome State Fault Refusal :=
  s.done (departureInject r free s)
def execPacketEject (p : PorchId) (s : State) : Host.Outcome State Fault Refusal := s.done (packetEject p s)
def execAckReceive (r : RoomId) (drank : BitVec 12) (droom : BitVec 7) (count : BitVec 8) (retried : Bool) (s : State) :
    Host.Outcome State Fault Refusal := s.done (ackReceive r drank droom count retried s)
def execPortRetrainingEnd (p : PortId) (b : PortBringUp) (aseq saseq : BitVec 8) (s : State) :
    Host.Outcome State Fault Refusal := s.done (portRetrainingEnd p b aseq saseq s)

end Sys2Proof.Machine
end

