-- ==== Sys2Proof/Machine/Collective.lean ====
section
/-! DEFINITION. The collective engine of the Porches (chapter 12). -/

namespace Sys2Proof.Machine

/-! ## Members (R636, R639) -/

/-- The members that send member `m` a partial, in the order of their combination (R639): m + 1, m + 2, m + 4, …. -/
def children (count m : Nat) : Nat → Nat → List Nat
  | 0, _ => []
  | fuel + 1, w => if m % (2 * w) ≠ 0 || decide (m + w ≥ count) then [] else (m + w) :: children count m fuel (2 * w)

/-- The member to which `m` passes its partial: its lowest set bit cleared. -/
def parentOf (m : Nat) : Nat → Nat → Nat
  | 0, _ => 0
  | fuel + 1, w => if m % (2 * w) ≠ 0 then m - w else parentOf m fuel (2 * w)

/-- Two lines combined, FP32 value by FP32 value (R639). -/
def combineLines (op : Nat) (a b : Bytes) : Bytes :=
  (List.range 64).flatMap fun i =>
    let x := BitVec.ofNat 32 (getLE a (4 * i) 4)
    let y := BitVec.ofNat 32 (getLE b (4 * i) 4)
    leBytes 4 (if op = 0 then f32add x y else if op = 1 then fMax x y else fMin x y).toNat

/-! ## Lines of an instance (R638 to R641) -/

def State.ctxOf (s : State) (p : PorchId) (c : Nat) : CollCtx := (s.porch p).coll.toList.getD c default

def State.modCtx (s : State) (p : PorchId) (c : Nat) (f : CollCtx → CollCtx) : State :=
  s.modPorch p fun x => if h : c < 16 then { x with coll := x.coll.set c (f x.coll[c]) } else x

/-- A change of line `idx` of instance `no`, which is made first where it is not held yet. -/
def CollCtx.modLine (x : CollCtx) (no idx : Nat) (f : CollLine → CollLine) : CollCtx :=
  let fresh : CollLine :=
    { idx := idx, dest := 0, tag := 0, own := none, parts := [], sent := false, result := none, written := false }
  let insts := if x.insts.any (fun i => i.no == no) then x.insts else x.insts ++ [{ no := no, lines := [] }]
  let upd (i : CollInst) : CollInst :=
    if i.no ≠ no then i
    else if i.lines.any (fun l => l.idx == idx) then { i with lines := i.lines.map fun l => if l.idx = idx then f l else l }
    else { i with lines := i.lines ++ [f fresh] }
  { x with insts := insts.map upd }

def CollCtx.lineOf (x : CollCtx) (no idx : Nat) : Option CollLine :=
  (x.insts.find? fun i => i.no == no).bind fun i => i.lines.find? fun l => l.idx == idx

/-- A packet of the engine to a member (R586). -/
def collPkt (kind : Nat) (own : BitVec 12) (e : BitVec 128) (c no idx whom : Nat) (tag : BitVec 16) (data : Bytes) : Pkt :=
  { hdr := pktHdr kind false false (BitVec.ofNat 12 (memberRank e whom)) (collRoom e) own (collRoom e) 256 tag
      (pack [(0, 4, c), (4, 8, no), (12, 6, idx)]),
    data := data, mask := fullMask, poison := 0 }

/-- A line to a context that is not valid or does not name its source (R649). -/
def State.collRoute (s : State) (lroom : Nat) (tag : BitVec 16) (c : Nat) : State :=
  s.porchFault fcCollRoute 0 tag lroom [BitVec.ofNat 64 c]

/-- A result line is delivered, to the Pantry or to HBM (R640), and passed to the members below (R639). -/
def collResult (p : PorchId) (c no idx m : Nat) (data : Bytes) (s : State) : State :=
  let x := s.ctxOf p c
  let e := x.entry
  match x.lineOf no idx with
  | none => s
  | some l =>
    let own := s.ownRank
    let s := s.modCtx p c fun x => x.modLine no idx fun l => { l with result := some data }
    let outs := (children (collCount e) m 13 1).map fun t => collPkt kCollDn own e c no idx t l.tag data
    let s := s.modPorch p fun x => { x with collOut := x.collOut ++ outs }
    let src := s.srcOf 6 (collRoom e) l.tag 0
    if collHbm e then
      let done (s : State) : State := s.modCtx p c fun x => x.modLine no idx fun l => { l with written := true }
      let off := collAddr e + 256 * idx
      match s.thr.load.bin with
      | some b =>
        if off + 256 ≤ b.pages * 0x200000 then done (s.queueWrite (b.base + off) data false src)
        else done (s.porchFault fcCollField 0 0 0x7F [BitVec.ofNat 64 c, BitVec.ofNat 64 no, BitVec.ofNat 64 idx])
      | none => done (s.porchFault fcCollField 0 0 0x7F [BitVec.ofNat 64 c, BitVec.ofNat 64 no, BitVec.ofNat 64 idx])
    else
      let a : Arr :=
        { kind := .coll p.val c no idx, line := l.dest, data := data, mask := fullMask, poison := 0, retried := false,
          refresh := false, src := src, srank := 0, sroom := 0, fab := false, bs := false }
      s.modRoom (roomIdOf (collRoom e)) (·.arrive a)

/-- A line whose own contribution and partials are all there is combined and passed on (R639). -/
def collAdvance (p : PorchId) (c no idx : Nat) (s : State) : State :=
  let x := s.ctxOf p c
  let e := x.entry
  match x.lineOf no idx, memberOf e s.ownRank.toNat with
  | some l, some m =>
    let below := children (collCount e) m 13 1
    let parts := below.map fun t => (l.parts.find? fun q => q.1 == t).map (·.2)
    match l.own with
    | none => s
    | some own =>
      if l.sent || parts.any Option.isNone then s
      else
        let acc := (parts.filterMap id).foldl (combineLines (collOp e)) own
        let s := s.modCtx p c fun x => x.modLine no idx fun l => { l with sent := true }
        if m = 0 then collResult p c no idx 0 acc s
        else
          let k := collPkt kCollUp s.ownRank e c no idx (parentOf m 13 1) l.tag acc
          s.modPorch p fun x => { x with collOut := x.collOut ++ [k] }
  | _, _ => s

/-- COLL_CONTRIBUTION (R638): the next contributing line; one of a third instance waits (R641). [DEDUCED: log 67.] -/
def collContribution (p : PorchId) (s : State) : State :=
  match (s.porch p).contrib with
  | [] => s
  | t :: rest =>
    let out (s : State) : State := s.modPorch p fun x => { x with contrib := rest }
    let x := s.ctxOf p t.ctx
    let e := x.entry
    if s.job.stopped then out s
    else if !(collValid e) || collRoom e ≠ t.room.val || (memberOf e s.ownRank.toNat).isNone then
      (out s).collRoute t.room.val t.tag t.ctx
    else
      let no := x.count / collLines e
      let idx := x.count % collLines e
      if no ≥ x.first + 2 then s
      else
        let s := (out s).modCtx p t.ctx fun x =>
          { x.modLine no idx (fun l => { l with dest := t.line, tag := t.tag, own := some t.data }) with count := x.count + 1 }
        collAdvance p t.ctx no idx s

/-- A collective packet leaves the queue of its Porch. -/
def State.takeColl (s : State) (p : PorchId) (kind c inst idx : Nat) : State :=
  let mine (k : Pkt) : Bool :=
    let a := (pktArg k.hdr).toNat
    pktKind k.hdr == kind && nbits a 0 4 == c && nbits a 4 8 == inst && nbits a 12 6 == idx
  s.modPorch p fun x => { x with ejq := delFirst mine x.ejq }

/-- COLL_UP: a partial line from a child (R639, R641). [DEDUCED: log 67.] -/
def collUp (p : PorchId) (c : BitVec 4) (inst : BitVec 8) (idx : BitVec 6) (srank : BitVec 12) (data : Bytes) (s : State) :
    State :=
  let x := s.ctxOf p c.toNat
  let e := x.entry
  let s0 := s.takeColl p kCollUp c.toNat inst.toNat idx.toNat
  let d := x.ahead inst.toNat
  if s.job.stopped then s0
  else match memberOf e srank.toNat with
  | none => s0.collRoute (collRoom e) 0 c.toNat
  | some t =>
    if !(collValid e) then s0.collRoute (collRoom e) 0 c.toNat
    else if d ≥ 128 then
      s0.porchFault fcCollStale 0 0 0x7F [c.zeroExtend 64, inst.zeroExtend 64, srank.zeroExtend 64]
    else if d ≥ 2 then s
    else
      let no := x.first + d
      let s := s0.modCtx p c.toNat fun x => x.modLine no idx.toNat fun l =>
        { l with parts := l.parts ++ [(t, slice data 0 256)] }
      collAdvance p c.toNat no idx.toNat s

/-- COLL_DN: a result line (R639, R640). [DEDUCED: log 67.] -/
def collDn (p : PorchId) (c : BitVec 4) (inst : BitVec 8) (idx : BitVec 6) (data : Bytes) (s : State) : State :=
  let x := s.ctxOf p c.toNat
  let s0 := s.takeColl p kCollDn c.toNat inst.toNat idx.toNat
  if s.job.stopped then s0
  else match memberOf x.entry s.ownRank.toNat with
  | none => s0.collRoute (collRoom x.entry) 0 c.toNat
  | some m =>
    let d := x.ahead inst.toNat
    if !(collValid x.entry) then s0.collRoute (collRoom x.entry) 0 c.toNat
    else if d ≥ 2 then s0
    else
      match x.lineOf (x.first + d) idx.toNat with
      | none => s0
      | some l => if l.result.isSome then s0 else collResult p c.toNat (x.first + d) idx.toNat m (slice data 0 256) s0

/-- COLL_INSTANCE_COMPLETE (R640): every result line is written, and the completion latch arrives. -/
def collInstanceComplete (p : PorchId) (c : BitVec 4) (inst : BitVec 8) (s : State) : State :=
  let x := s.ctxOf p c.toNat
  let e := x.entry
  let d := x.ahead inst.toNat
  let no := x.first + d
  match x.insts.find? fun i => i.no == no with
  | none => s
  | some i =>
    if d ≥ 2 || i.lines.length ≠ collLines e || !(i.lines.all (·.written)) then s
    else
      let nextDone := !(x.insts.any fun i => i.no == x.first + 1) && decide (x.count ≥ (x.first + 2) * collLines e)
      let first := if d ≠ 0 then x.first else if nextDone then x.first + 2 else x.first + 1
      let s := s.modCtx p c.toNat fun x => { x with insts := x.insts.filter (fun i => i.no != no), first := first }
      let a : Arr :=
        { kind := .inc (collLatch e) (BitVec.ofNat 8 (collGen e + no)) 1, line := 0, data := [], mask := 0, poison := 0,
          retried := false, refresh := false, src := s.srcOf 6 (collRoom e) 0 0, srank := 0, sroom := 0, fab := false,
          bs := false }
      s.modRoom (roomIdOf (collRoom e)) (·.arrive a)

/-! ## The commands -/

def execCollContribution (p : PorchId) (s : State) : Host.Outcome State Fault Refusal := s.done (collContribution p s)
def execCollUp (p : PorchId) (c : BitVec 4) (inst : BitVec 8) (idx : BitVec 6) (srank : BitVec 12) (data : Bytes)
    (s : State) : Host.Outcome State Fault Refusal := s.done (collUp p c inst idx srank data s)
def execCollDn (p : PorchId) (c : BitVec 4) (inst : BitVec 8) (idx : BitVec 6) (data : Bytes) (s : State) :
    Host.Outcome State Fault Refusal := s.done (collDn p c inst idx data s)
def execCollInstanceComplete (p : PorchId) (c : BitVec 4) (inst : BitVec 8) (s : State) :
    Host.Outcome State Fault Refusal := s.done (collInstanceComplete p c inst s)

end Sys2Proof.Machine
end

