-- ==== Sys2Proof/Machine/Tables.lean ====
section
/-! DEFINITION. Pattern and curve tables and their slots (R142 to R153, R280 to R282), what ends with a job (R144, R389,
R390, R509, R518), and the rights of the privilege table (R712 to R715). -/

namespace Sys2Proof.Machine

/-! ## Tables as bytes -/

/-- The length of a pattern table by KIND (R149). -/
def ptabLen (kind : Nat) : Nat := if kind = 0 then 32 else if kind = 1 then 80 else if kind = 2 then 528 else 272

/-- A pattern table, unless a reserved bit is set (R148 to R153). -/
def parsePtab (bs : Bytes) (source : Bool) : Option PTable :=
  let kind := getLE bs 0 1 % 4
  let n := if kind = 0 then 16 else if kind = 1 then 64 else 256
  let es := (List.range n).map fun i => if kind = 2 then getLE bs (16 + 2 * i) 2 else getLE bs (16 + i) 1
  let badEntry (e : Nat) : Bool := if kind = 2 then decide (e ≥ 512) else if kind = 3 then false else decide (e ≥ 128)
  if bs.length ≠ ptabLen kind || getLE bs 0 4 ≠ kind || getLE bs 8 8 ≠ 0 || es.any badEntry then none
  else some { kind := BitVec.ofNat 2 kind, id := BitVec.ofNat 32 (getLE bs 4 4), source := source,
              entries := es.map (BitVec.ofNat 16) }

/-- Is an FP32 value an integer multiple of 2^w of magnitude below 2^24 · 2^w (R282)? -/
def multipleOf (b : BitVec 32) (w : Int) : Bool :=
  match ofF32 b with
  | .fin _ m e =>
    if m = 0 then true
    else if e ≥ w then !(magLt (2 ^ 24 - 1) w m e)
    else m % 2 ^ (w - e).toNat == 0 && !(magLt (2 ^ 24 - 1) w m e)
  | _ => false

/-- Is a curve table invalid (R282)? -/
def ctabBad (h : BitVec 256) : Bool :=
  let mode := field h 0 2
  field h 13 3 != 0 || mode == 3 || field h 8 3 == 7 ||
    (mode == 2 && (field h 2 2 == 3 || field h 6 2 == 3 || (bit h 4 && field h 8 3 == 0))) ||
    (mode == 0 && !(multipleOf (h.extractLsb' 64 32) (signed (field h 16 8) 8)))

/-- A curve table, unless it is invalid or of another length (R281, R282). -/
def parseCtab (bs : Bytes) (source : Bool) : Option CTable :=
  let h := BitVec.ofNat 256 (getLE bs 0 32)
  let n := 2 ^ field h 8 3
  if bs.length ≠ 32 + 16 * n || ctabBad h then none
  else some { header := h, segs := (List.range n).map fun i => BitVec.ofNat 128 (getLE bs (32 + 16 * i) 16),
              source := source }

/-! ## Slots -/

/-- A TABLE record (R725). -/
def State.tableRec (s : State) (kind slot src id : Nat) : State :=
  s.gbPush 0x08 0 0 1 (packBytes 8 [(0, 8, kind), (8, 8, slot), (16, 8, src), (32, 32, id)])

/-- A pattern slot takes a table or becomes empty; its words hold no error. [DESIGN CHOICE: log 83.] -/
def State.writePtab (s : State) (slot : Nat) (t : Option PTable) (src : Nat) : State :=
  if h : slot < 64 then
    let tb := { s.tabs with
      ptab := s.tabs.ptab.set slot t
      ptabDue := sclear s.tabs.ptabDue (128 * slot) (128 * slot + 128)
      ptabSbe := sclear s.tabs.ptabSbe (128 * slot) (128 * slot + 128) }
    ({ s with tabs := tb }).tableRec 0 slot src (match t with
      | some x => x.id.toNat
      | none => 0)
  else s

/-- A curve slot takes a table or becomes empty. [DESIGN CHOICE: log 83.] -/
def State.writeCtab (s : State) (slot : Nat) (t : Option CTable) (src : Nat) : State :=
  if h : slot < 32 then
    let tb := { s.tabs with
      ctab := s.tabs.ctab.set slot t
      ctabDue := sclear s.tabs.ctabDue (132 * slot) (132 * slot + 132)
      ctabSbe := sclear s.tabs.ctabSbe (132 * slot) (132 * slot + 132) }
    ({ s with tabs := tb }).tableRec 1 slot src (match t with
      | some x => field x.header 224 32
      | none => 0)
  else s

/-- Every slot returns to its configuration table (R144, R280, R389). -/
def State.restoreTables (s : State) : State :=
  let s := (List.range 64).foldl (fun s n =>
    let c := s.tabs.cfgPtab.toList.getD n none
    if s.tabs.ptab.toList.getD n none = c then s else s.writePtab n c 2) s
  (List.range 32).foldl (fun s n =>
    let c := s.tabs.cfgCtab.toList.getD n none
    if s.tabs.ctab.toList.getD n none = c then s else s.writeCtab n c 2) s

/-! ## What ends with a binary -/

/-- A Room cleared as one switched on (R113, R114), but for what counts since power-up (R455, R456, R753). [DESIGN CHOICE: log 84.] -/
def Room.cleared (rm : Room) : Room :=
  { Room.reset true with
    pan := { Pan.reset with status := setField 0#64 48 16 (field rm.pan.status 48 16), passes := rm.pan.passes,
                            scPass := rm.pan.scPass }
    w1c := rm.w1c }

/-- The Rooms below LROOMS are cleared, and those that R113 switched off are switched on, cleared. -/
def State.clearRooms (s : State) (lrooms : Nat) (enabled : Nat) : State :=
  (allRooms.filter fun r => decide (r.val < enabled)).foldl (fun s r =>
    if r.val < lrooms then s.modRoom r Room.cleared
    else if (s.room r).on then s else s.setRoom r (Room.reset true)) s

/-- The logical Rooms enabled by the Room map (R28, R30, R36). -/
def State.enabledRooms (s : State) : Nat := 8 * (s.wing 0).logCols.toNat

/-- The 2 MiB page size of R387. -/
def pageSize : Nat := 2097152

/-- Pages of HBM overwritten with zero (R389, R509). -/
def Mem.zeroPages (m : Mem) (pages : List Nat) : Mem :=
  pages.foldl (fun m p =>
    { m with
      hbm := sclear m.hbm (pageSize * p) (pageSize * (p + 1))
      hbmBad := sclear m.hbmBad (pageSize * p / 64) (pageSize * (p + 1) / 64)
      hbmSbe := sclear m.hbmSbe (pageSize * p / 64) (pageSize * (p + 1) / 64) }) m

/-- Every write that waits in a stack queue takes place (R474): later accesses of the loader find it done. -/
def State.flushHbm (s : State) : State :=
  let idle (q : QItem) : QItem := { q with writes := [], bad := [] }
  let stack (k : Stack) : Stack := { k with queue := k.queue.map idle }
  let m := s.hbmView
  let cell (k : Cellar) : Cellar := { k with stk := k.stk.map stack }
  { s with mem := { m with cellars := m.cellars.map cell } }

/-- The job's requests and engine operations, its Corridor lines and its collective instances are gone. -/
def State.dropTraffic (s : State) : State :=
  let noEng (e : Engine) : Engine := { e with queue := [], cur := none }
  let cell (k : Cellar) : Cellar := { k with xpose := noEng k.xpose, gs := noEng k.gs }
  let ctx (c : CollCtx) : CollCtx := { c with insts := [], first := 0, count := 0 }
  let porch (p : Porch) : Porch := { p with coll := p.coll.map ctx, contrib := [] }
  let wing (w : Wing) : Wing := { w with corr := [], frzOn := false, active := false, done := false, doneNow := false }
  { s with
    mem := { s.mem with reqs := [], cellars := s.mem.cellars.map cell }
    fab := { s.fab with porches := s.fab.porches.map porch }
    wings := s.wings.map wing }

/-- The allocation of a job ends: its sealed pages are zeroed (R389, R509), its region table is cleared (R486), its Rooms
are cleared and the slots restored. [DESIGN CHOICE: log 84.] -/
def State.freeJob (s : State) : State :=
  let b := s.thr.load.bin
  let s := s.flushHbm
  let m := s.mem.zeroPages (match b with
    | some x => x.sealed_
    | none => [])
  let s := { s with mem := { m with regions := [] }, thr := { s.thr with load := { s.thr.load with bin := none } } }
  let s := (s.clearRooms (match b with
    | some x => x.lrooms
    | none => 0) s.enabledRooms).dropTraffic
  let job := { s.job with ticking := false, startSet := false, runProfile := 0, lrooms := 0, stopped := false, ended := false }
  ({ s with job := job }).restoreTables

/-- The SHA3-512 of the load log's written records (R409). -/
def Loader.logHash (l : Loader) : BitVec 512 :=
  Config.sha3 ((List.range l.logLen).flatMap fun i => leBytes 32 (sget l.log i).toNat)

/-- The LOAD_END record (R409, R725). -/
def State.loadEnd (s : State) (reason : Nat) : State :=
  let l := s.thr.load
  s.gbPush 0x07 0 0 2 (packBytes 76 [(0, 64, field l.status 128 64), (64, 16, reason), (80, 16, field l.status 48 16),
    (96, 512, l.logHash.toNat)])

/-- A load ends without LOADED (R389): PHASE 12, LOAD_FAIL, and CONFIGURED. `where` are the fields of THRESH_LOAD_STATUS
that locate the failure (R406). -/
def State.refuseLoad (s : State) (reason : Nat) (place : BitVec 256) : State :=
  let l := s.thr.load
  let st := setField (setField (l.status ||| place) 0 4 12) 8 16 reason
  let st := setField st 192 64 0
  let s := { s with thr := { s.thr with load := { l with status := st, fail := true } } }
  ((s.loadEnd reason).freeJob).setState .configured 0x01

/-! ## Rights (R712 to R715) -/

def rLoad : Nat := 0
def rStart : Nat := 1
def rStop : Nat := 2
def rUnload : Nat := 3
def rMode : Nat := 4
def rTable : Nat := 5
def rAttest : Nat := 6
def rMgmtRead : Nat := 7
def rMgmtWrite : Nat := 8
def rRankMap : Nat := 9
def rDebug : Nat := 10
def rGbRead : Nat := 11
def rGbMark : Nat := 12
def rSign : Nat := 13

/-- DEBUG_ALLOW of the parameter block. -/
def State.debugAllow (s : State) : Bool := s.param 30 1 == 1

/-- Does the privilege table grant a right to a subject (R714)? DEBUG is effective only with DEBUG_ALLOW (R713). -/
def State.granted (s : State) (skind subject right : Nat) : Bool :=
  (right != rDebug || s.debugAllow) && s.thr.boot.img.priv.any fun e =>
    field e 0 4 == skind && decide (field e 8 12 ≤ subject) && decide (subject ≤ field e 20 12) && bit e (32 + right)

/-- SKIND of an origin (R712). -/
def originKind : Origin → Nat
  | .self => 0
  | .companion => 1
  | .board => 2
  | .debug => 3
  | .rank _ => 4

/-- May an origin do this (R714, R790)? -/
def State.may (s : State) (o : Origin) (right : Nat) : Bool :=
  match o with
  | .self => true
  | .board => if s.thr.boot.valid then s.granted 2 0 right else right == rMgmtRead || right == rGbRead
  | o => s.granted (originKind o) (originOid o) right

/-- A request is denied (R715): the DENIED record and PRIV_DENIED. -/
def State.deny (s : State) (origin oid skind subject right addr : Nat) : State :=
  let s := s.gbPush 0x10 origin oid 1 (packBytes 14 [(0, 8, skind), (16, 16, subject), (32, 8, right), (64, 48, addr)])
  s.raise 0x9004 0 5 0 0 [BitVec.ofNat 64 skind, BitVec.ofNat 64 subject, BitVec.ofNat 64 right]

/-- A management access of an origin is denied. -/
def State.denyOf (s : State) (o : Origin) (right addr : Nat) : State := s.deny (originCode o) (originOid o) (originKind o) (originOid o) right addr

end Sys2Proof.Machine
end

