-- ==== Sys2Proof/Machine/Halt.lean ====
section
/-! DEFINITION. Job commands: what STOP, QUIESCE, FREEZE and FAULTED do to the package (R743, R804 to R810), and the
messages that the Threshold originates on the Stairwell (R625, R796, R797, R802, R812). -/

namespace Sys2Proof.Machine

/-! ## Rooms -/

/-- Is a held read that of a command which has started: a line it still has to read in this schedule cycle? -/
def Room.heldStarted (rm : Room) (cyc : Nat) (tag : BitVec 16) (line : Nat) : Bool :=
  rm.pend.any fun p => decide (p.due ≤ cyc) && tagOf p.word == tag && (match p.eff with
    | .grab _ l _ => l == line
    | _ => false)

/-- The queues without the commands that have not started; a command whose first read is held has started (R743, R806). -/
def Room.dropQueues (rm : Room) (cyc : Nat) : Room :=
  let held (c : QCmd) : Bool := rm.frz.any fun f => match f with
    | .line t l false => t == tagOf c.word && !(rm.heldStarted cyc t l)
    | _ => false
  { rm with queues := rm.queues.map fun q => (q.take 1).filter held }

/-- The effects of a STOP in one Room (R806 items 1 to 4): what was held goes on released; a full departure buffer still
drains. -/
def stopRoom (r : RoomId) (s : State) : State :=
  let rm := (s.room r).dropQueues (s.cyc r)
  let keep (f : Frz) : Bool := match f with
    | .depart _ => true
    | _ => false
  let some? := rm.frz.any fun f => !(keep f)
  let rm := { rm with
    seq := { rm.seq with issuing := false }
    frz := rm.frz.filter keep
    stopped := true
    latch := { rm.latch with watches := Vector.replicate 8 none } }
  let s := haltAll r (s.setRoom r rm)
  if some? then s.modWing (wingOf r) fun g => { g with frzBits := none, held := true } else s

/-- A STOP takes effect in a Wing. -/
def stopWing (w : WingId) (s : State) : State :=
  ((roomsOf w).filter s.roomUp).foldl (fun s r => stopRoom r s) (s.modWing w fun g => { g with stopPend := false })

/-- Every stream of the package halts as by DWHALT (R806 item 2, R807). -/
def haltStreams (s : State) : State := (allRooms.filter s.roomUp).foldl (fun s r => haltAll r s) s

/-- The collective engines discard the instances that are not complete (R806 item 5). -/
def dropCollectives (s : State) : State :=
  let ctx (c : CollCtx) : CollCtx := { c with insts := [] }
  let porch (p : Porch) : Porch := { p with coll := p.coll.map ctx }
  { s with fab := { s.fab with porches := s.fab.porches.map porch } }

def allWings : List WingId := [0, 1, 2, 3]

/-- No Wing has a schedule tick in progress any more. [DEDUCED: log 72.] -/
def State.endTick (s : State) : State :=
  { s with wings := s.wings.map fun (g : Wing) => { g with active := false } }

/-- A STOP in RUNNING or DRAINING: at once, but in a Wing in its frequency-change stop after the restart (R806). [DEDUCED: log 13.] -/
def stopPackage (s : State) : State :=
  let s := allWings.foldl (fun s w =>
    if (s.wing w).fstop.isSome then s.modWing w fun g => { g with stopPend := true } else stopWing w s) s
  let s := (dropCollectives { s with job := { s.job with stopped := true } }).endTick
  if s.job.js = .running then s.setState .draining 3
  else { s with job := { s.job with pend := 0, pendStick := 0 } }

/-- QUIESCE takes effect (R807). -/
def quiesceNow (s : State) : State := (haltStreams s).setState .draining 3

/-- FREEZE takes effect (R807). -/
def freezeNow (s : State) : State :=
  ({ s with job := { s.job with frozen := true, pend := 0, pendStick := 0 } })

/-- FAULTED in one Room (R743 items 1 to 3): a frozen Wing stays frozen. -/
def faultRoom (r : RoomId) (s : State) : State :=
  let rm := (s.room r).dropQueues (s.cyc r)
  let stop (t : DwStream) : DwStream :=
    { t with todo := [], bound := false, left := t.left.filter fun q => !(t.todo.contains q) }
  s.setRoom r { rm with
    seq := { rm.seq with issuing := false }
    dw := { rm.dw with streams := rm.dw.streams.map stop } }

/-! ## Stairwell messages that the Threshold originates -/

/-- The body of a message (R796). -/
def stwBody (sop : Nat) (rtm : Bool) (seq : BitVec 16) (a b c : Nat) (data : Bytes) : Bytes :=
  packBytes 32 [(0, 8, sop), (8, 1, b2n rtm), (16, 16, seq.toNat), (64, 64, a), (128, 64, b), (192, 64, c)] ++ data

/-- The number of the next message this package originates (R796, R812). -/
def State.stwNext (s : State) : BitVec 16 × State :=
  let w := s.thr.stw
  let w := { w with seqNo := w.seqNo + 1, sent := satAdd w.sent 1 }
  (w.seqNo, { s with thr := { s.thr with stw := w } })

/-- A broadcast leaves (R812): its number. [DESIGN CHOICE: log 45.] -/
def State.stwBroadcast (s : State) (sop : Nat) (rtm : Bool) (a b c : Nat) : BitVec 16 × State :=
  let x := s.stwNext
  let w := { x.2.thr.stw with lastSop := BitVec.ofNat 8 sop, lastSeq := x.1, acks := 0, naks := 0, received := satAdd x.2.thr.stw.received 1 }
  let s := { x.2 with thr := { x.2.thr with stw := w } }
  (x.1, stwSpread s.ownRank (stwBody sop rtm x.1 a b c []) 0 s)

/-- A unicast message leaves for another rank on the safe route (R625). -/
def State.stwUnicast (s : State) (dst : BitVec 12) (sop a b c : Nat) (data : Bytes) : BitVec 16 × State :=
  let x := s.stwNext
  let s := x.2
  let body := stwBody sop false x.1 a b c data
  let h := pktHdr kStw false false dst 0x7F s.ownRank 0x7F body.length 0 0
  match s.safeHop h none with
  | none => (x.1, s)
  | some (no, lane) => (x.1, stwSend no { hdr := setField h 27 1 lane, data := body, mask := 0, poison := 0 } s)

/-- An answer is counted for the latest broadcast (R812). [DESIGN CHOICE: log 45.] -/
def State.stwCount (s : State) (sop : Nat) (seq : BitVec 16) (resp : Nat) : State :=
  let w := s.thr.stw
  if w.lastSop.toNat ≠ sop || w.lastSeq ≠ seq then s
  else { s with thr := { s.thr with stw :=
    if resp = 0 then { w with acks := satAdd w.acks 1 } else { w with naks := satAdd w.naks 1 } } }

/-- The RESPONSE to a message (R797, R802); the package's own answer is counted where it stands. -/
def State.stwRespond (s : State) (src : BitVec 12) (sop : Nat) (seq : BitVec 16) (resp b : Nat) (data : Bytes) : State :=
  if src = s.ownRank then s.stwCount sop seq resp
  else (s.stwUnicast src 0x12 (pack [(0, 8, sop), (8, 16, seq.toNat), (24, 3, resp)]) b 0 data).2

/-- An STW record (R725, R803). -/
def State.stwRec (s : State) (src : BitVec 12) (cmd : Nat) : State :=
  let self := decide (src = s.ownRank)
  s.gbPush 0x0B (if self then 0 else 3) (if self then 0 else src.toNat) 1 (packBytes 4 [(0, 8, cmd), (16, 16, src.toNat)])

/-! ## Announcements (R103, R632, R634, R744) -/

/-- OOS of a rank's entry (R633, R644). -/
def State.setOos (s : State) (rank : BitVec 12) (v : Bool) : State :=
  let f (x : Porch) : Porch :=
    { x with entries := sput x.entries rank.toNat (setField (x.entry rank.toNat) 41 1 (b2n v)) }
  { s with fab := { s.fab with porches := s.fab.porches.map f } }

/-- The package announces itself out of step: OUT_OF_STEP, the broadcast, its own entry and record, and the Doorplate
(R103, R632, R683). -/
def State.announceOut (s : State) : State :=
  let was := s.thr.clk.outOfStep
  let s := { s with thr := { s.thr with clk := { s.thr.clk with outOfStep := true } } }
  let s := (s.stwBroadcast 0x07 false 0 0 0).2
  let s := (s.stwRec s.ownRank 4).setOos s.ownRank true
  if was then s else s.doorplate

/-- The package announces that it is back in step (R634, R635): REALIGNED and the REALIGN record. -/
def State.announceIn (s : State) (delta : Nat) : State :=
  let s := { s with thr := { s.thr with clk := { s.thr.clk with outOfStep := false, realigned := true } } }
  let s := (s.stwBroadcast 0x08 false delta 0 0).2
  let s := (s.stwRec s.ownRank 5).setOos s.ownRank false
  (s.gbPush 0x0C 0 0 1 (packBytes 16 [(0, 64, delta), (64, 64, s.job.tick.toNat)])).doorplate

/-- The package enters FAULTED (R743), with the announcement of R744 from RUNNING or DRAINING. [DEDUCED: log 49.] -/
def enterFaulted (code : Nat) (announce : Bool) (s : State) : State :=
  let old := s.job.js
  let s := (allRooms.filter s.roomUp).foldl (fun s r => faultRoom r s) s
  let s := (s.endTick).setState .faulted code
  let s := { s with job := { s.job with startSet := false } }
  let s := s.endStart 0 0
  if announce && (old == .running || old == .draining) then (s.stwBroadcast 0x09 false code 0 0).2 else s

/-! ## STOP, QUIESCE and FREEZE as received (R805 to R810) -/

/-- The right of a message's origin (R798); the Threshold's own messages hold every right (R714). -/
def State.stwMay (s : State) (src : BitVec 12) (right : Nat) : Bool :=
  decide (src = s.ownRank) || s.granted 4 src.toNat right

/-- A STOP (R806): its effect, and the RESPONSE once every Newel has applied it (R802). -/
def stwStopEff (src : BitVec 12) (seq : BitVec 16) (s : State) : State :=
  match s.job.js with
  | .loading => (s.refuseLoad 0x0F01 0).stwRespond src 1 seq 0 0 []
  | .running | .draining =>
    let s := stopPackage s
    if (allWings.any fun w => (s.wing w).stopPend) then
      { s with thr := { s.thr with stw := { s.thr.stw with stwWait := some (src, seq) } } }
    else s.stwRespond src 1 seq 0 0 []
  | _ => s.stwRespond src 1 seq 2 0 []

/-- A QUIESCE (1) or FREEZE (2) naming S (R807, R808, R810). -/
def stwPendEff (kind : Nat) (src : BitVec 12) (seq : BitVec 16) (target : BitVec 64) (s : State) : State :=
  if s.job.js ≠ .running then s.stwRespond src (kind + 1) seq 2 0 []
  else
    let j := s.job
    let keep := j.pend ≠ 0 && (j.pendStick.ult target || (j.pendStick == target && (j.pend == 1 || kind == 2)))
    let idle := j.frozen && (kind == 2 || j.pend != 0)
    let late := decide (target.toNat ≤ j.stick.toNat)
    let s := if idle || keep then s
      else { s with job := { j with pend := BitVec.ofNat 2 kind, pendStick := target } }
    let s := if late then { s with thr := { s.thr with stw := { s.thr.stw with late := true } } } else s
    s.stwRespond src (kind + 1) seq 0 0 []

/-- S of a QUIESCE or FREEZE that this package originates (R804). -/
def State.leadStick (s : State) : BitVec 64 :=
  s.job.stick + BitVec.ofNat 64 (max 2 (cdiv s.startLead (max s.tickRc 1)))

/-- Is a job command legal (R678, R804)? -/
def State.stopLegal (s : State) (kind : Nat) : Bool :=
  s.job.js == .running || (kind == 0 && (s.job.js == .loading || s.job.js == .draining))

/-- The package originates STOP (0), QUIESCE (1) or FREEZE (2) to the job: the broadcast and its own local delivery. -/
def originate (kind : Nat) (s : State) : State :=
  let own := s.ownRank
  let target := if kind = 0 then 0 else s.leadStick
  let x := s.stwBroadcast (kind + 1) false target.toNat 0 0
  let s := x.2.stwRec own kind
  if kind = 0 then stwStopEff own x.1 s else stwPendEff kind own x.1 target s

end Sys2Proof.Machine
end

