-- ==== Sys2Proof/Machine/Clocks.lean ====
section
/-! DEFINITION. Rails, Wing ratios, throttling, droop, reference loss and the junction trip (chapters 03 and 17). -/

namespace Sys2Proof.Machine

/-! ## Rail control (R824 to R826) -/

/-- The code of a setpoint in mV: ceil((s − 497.5) ÷ 2.5), limited to 1–255. -/
def railCode (mv : Nat) : BitVec 8 := BitVec.ofNat 8 (max 1 (min 255 ((2 * mv - 995 + 4) / 5)))

/-- A request among those of the same rc, in ascending SEL. -/
def insertSel (x : Nat × BitVec 8) : List (Nat × BitVec 8) → List (Nat × BitVec 8)
  | [] => [x]
  | y :: t => if x.1 < y.1 then x :: y :: t else y :: insertSel x t

/-- A request that falls due at `rc`: its strobe rises 2 rc later, or 8 rc after the strobe before it. [DESIGN CHOICE: log 23.] -/
def Power.request (p : Power) (rc sel : Nat) (code : BitVec 8) : Power :=
  let older := p.strobes.filter fun e => e.1 != rc
  let same := (p.strobes.filter fun e => e.1 == rc).map fun e => (e.2.2.1, e.2.2.2)
  let base := older.foldl (fun b e => max b (e.2.1 + 8)) (rc + 2)
  { p with strobes := older ++ (indexed (insertSel (sel, code) same)).map fun x => (rc, base + 8 * x.1, x.2.1, x.2.2) }

/-- The strobes that rise at `rc` reach their regulators; those 8 rc old leave the list. [DESIGN CHOICE: log 23.] -/
def Power.strobe (p : Power) (rc : Nat) : Power :=
  let up := p.strobes.filter fun e => e.2.1 == rc
  { p with
    codes := up.foldl (fun v e => if h : e.2.2.1 < 8 then v.set e.2.2.1 e.2.2.2 else v) p.codes
    strobes := p.strobes.filter fun e => decide (rc < e.2.1 + 8) }

/-- VWING_MV of a ratio (R117); zero where the DVFS table does not hold it. -/
def State.vwing (s : State) (m : Nat) : Nat :=
  match s.thr.boot.img.dvfs.find? fun e => field e 0 5 == m with
  | some e => field e 8 12
  | none => 0

/-- The DVFS entry of a ratio. -/
def State.dvfsOf (s : State) (m : Nat) : BitVec 64 := (s.thr.boot.img.dvfs.find? fun e => field e 0 5 == m).getD 0

/-- The rail of a Wing is requested for a ratio. -/
def State.askRail (s : State) (w : WingId) (m : Nat) : State :=
  { s with thr := { s.thr with pwr := s.thr.pwr.request s.rc w.val (railCode (s.vwing m)) } }

/-- The next reference edge after now. -/
def State.nextRef (s : State) : Nat := (s.now / RCQ + 1) * RCQ

/-- The ratio of a binary's first schedule tick (R372): at LOADED the Wing changes to it on the next reference edge, and its
rail is requested. [DEDUCED: log 19.] -/
def State.setRatio (s : State) (w : WingId) (m : Nat) : State :=
  if (s.wing w).m = m then s
  else (s.modWing w fun g => { g with m := m, period := RCQ / m, nextEdge := s.nextRef }).askRail w m

/-! ## Throttle and droop (R88 to R93, R119 to R122) -/

/-- The number of the highest entry of a throttle table whose threshold is reached, counted from one; zero for none. -/
def reached (t : List (BitVec 32)) (p : Nat → Bool) : Nat :=
  (indexed t).foldl (fun n e => if p (field e.2 0 12) then e.1 + 1 else n) 0

/-- DUTY of an entry counted from one. -/
def dutyAt (t : List (BitVec 32)) (n : Nat) : BitVec 8 :=
  if n = 0 then 0 else BitVec.ofNat 8 (field (t.getD (n - 1) 0) 12 8)

/-- The thermal entry in force at a temperature (R121). -/
def thermEntry (t : List (BitVec 32)) (old : Nat) (temp : Int) : Nat :=
  let new := reached t fun th => decide ((th : Int) ≤ temp)
  if new ≥ old then new
  else if temp + 32 > (field (t.getD (old - 1) 0) 0 12 : Int) then old else new

/-- The power entry at a Wing power estimate in mW, in 1/256 of PCAP_W above PCAP_W (R119). -/
def powerEntry (t : List (BitVec 32)) (pcapW powerMw : Nat) : Nat :=
  if powerMw < 1000 * pcapW then 0
  else reached t fun th => decide (th * 1000 * pcapW ≤ (powerMw - 1000 * pcapW) * 256)

/-- THROTTLE_EVAL. [DESIGN CHOICE: log 20.] -/
def throttleEval (w : WingId) (temp : BitVec 16) (powerMw : Nat) (s : State) : State :=
  if !(bit s.thr.pwr.spine w.val) then s
  else
    let img := s.thr.boot.img
    let g := s.wing w
    let n := thermEntry img.therm g.entryT temp.toInt
    let k := powerEntry img.power (field (s.dvfsOf g.m) 24 16) powerMw
    s.setWing w { g with entryT := n, dutyT := dutyAt img.therm n, dutyP := dutyAt img.power k, tempMax := temp }

/-- DROOP_DETECT: the present period is stretched to 1.5 periods, unless it or the one before is stretched already (R90);
after 512 stretches in the schedule tick the next gc becomes a stop-cycle (R93). [DEDUCED: log 11; DEDUCED: log 15.] -/
def droopDetect (w : WingId) (s : State) : State :=
  let g := s.wing w
  if !g.clockOn then s
  else if g.active && decide (g.strTick ≥ 512) then s.setWing w { g with stopNext := true, strLimit := true }
  else if g.curStr || g.prevStr then s
  else
    let counts := s.advancing w && g.active
    s.setWing w { g with
      curStr := true, nextEdge := g.nextEdge + g.period / 2, strTick := g.strTick + b2n counts
      strEvt := if counts && !g.done then satAdd g.strEvt 1 else g.strEvt }

/-! ## The reference (R102 to R110) -/

/-- REF_LOSS. -/
def refLoss (s : State) : State :=
  let k := s.thr.clk
  if !k.refOk then s
  else
    let n := satAdd k.losses 1
    let s := { s with
      wings := s.wings.map fun (g : Wing) => { g with holdover := g.lock }
      thr := { s.thr with clk := { k with refOk := false, refLoss := true, holdover := true, holdRc := 0, losses := n } } }
    (s.raise 0x1003 0 5 0 0 [n.zeroExtend 64]).announceOut

/-- REF_RETURN: every PLL pulls in and leaves holdover; OUT_OF_STEP stays (R108). -/
def refReturn (s : State) : State :=
  let k := s.thr.clk
  if k.refOk || !k.holdover then s
  else { s with
    wings := s.wings.map fun (g : Wing) => { g with holdover := false }
    thr := { s.thr with clk := { k with refOk := true, holdover := false } } }

/-- HOLDOVER_EXPIRED: the fault now; the Wings stop at the next boundary. [DESIGN CHOICE: log 16.] -/
def holdoverExpired (s : State) : State :=
  let k := s.thr.clk
  if !k.holdover || k.stopAll || decide (k.holdRc.toNat < 100000) then s
  else
    ({ s with thr := { s.thr with clk := { k with expired := true, stopAll := true } } }).raise 0x1004 1 5 0 0
      [k.holdRc.zeroExtend 64]

/-- OSC_CALIBRATE. -/
def oscCalibrate (count : Nat) (s : State) : State :=
  if !s.thr.clk.refOk then s else { s with thr := { s.thr with clk := { s.thr.clk with oscNum := count } } }

/-! ## Domains off (R114, R123, R832, R833) -/

/-- Every domain but the Threshold's is off and has lost its contents; the measured Room maps stay (R37). [DESIGN CHOICE: log 22.] -/
def State.domainsOff (s : State) : State :=
  let off (g : Wing) : Wing :=
    { Wing.reset with colGood := g.colGood, logCols := g.logCols, roomPass := g.roomPass }
  let p := { s.thr.pwr with cellar := 0, porch := 0, palbo := false, spine := 0 }
  { s with
    rooms := Vector.replicate 96 (Room.reset false), wings := s.wings.map off, mem := Mem.reset, fab := Fab.reset,
    pal := Palbo.reset, thr := { s.thr with pwr := p } }

/-- THERM_TRIP: at 110 °C every domain but the Threshold's switches off, and THERMTRIP# is asserted (R836); the periods since the
latest boundary stay for the record's GC (R746). [DESIGN CHOICE: log 22.] -/
def thermTrip (sensor temp : BitVec 16) (s : State) : State :=
  if temp.toInt < 1760 || s.thr.pwr.thermTrip || !s.thr.pwr.porst then s
  else
    let since := s.wings.map fun (g : Wing) => g.periods - g.perB
    let s := s.domainsOff
    let s := { s with
      wings := s.wings.mapFinIdx fun i g h => { g with periods := since[i] }
      thr := { s.thr with pwr := { s.thr.pwr with thermTrip := true } } }
    s.raise 0x1005 2 5 0 0 [sensor.zeroExtend 64, temp.zeroExtend 64]

/-- POWER_DOWN: a pulse below 10 rc is ignored; else the domains go off, every rail is disabled, and every pending rail
request, load and job is abandoned without a record. [DESIGN CHOICE: log 22.] -/
def powerDown (lowRc : Nat) (s : State) : State :=
  if lowRc < 10 || !s.thr.pwr.porst then s
  else
    let s := s.domainsOff
    let t := s.thr
    let p := { t.pwr with codes := Vector.replicate 8 0, strobes := [], porst := false }
    { s with
      job := { Job.reset with js := .off }, mir := Mirror.reset
      thr := { t with
        pwr := p, load := { t.load with bin := none }, stw := Stw.reset,
        boot := { t.boot with parked := none }, clk := { t.clk with stopAll := false, jclkSet := none, tickSet := none } } }

/-! ## The commands -/

def execThrottleEval (w : WingId) (temp : BitVec 16) (powerMw : Nat) (s : State) : Host.Outcome State Fault Refusal :=
  s.done (throttleEval w temp powerMw s)
def execDroopDetect (w : WingId) (s : State) : Host.Outcome State Fault Refusal := s.done (droopDetect w s)
def execRefLoss (s : State) : Host.Outcome State Fault Refusal := s.done (refLoss s)
def execRefReturn (s : State) : Host.Outcome State Fault Refusal := s.done (refReturn s)
def execHoldoverExpired (s : State) : Host.Outcome State Fault Refusal := s.done (holdoverExpired s)
def execOscCalibrate (count : Nat) (s : State) : Host.Outcome State Fault Refusal := s.done (oscCalibrate count s)
def execThermTrip (sensor temp : BitVec 16) (s : State) : Host.Outcome State Fault Refusal := s.done (thermTrip sensor temp s)
def execPowerDown (lowRc : Nat) (s : State) : Host.Outcome State Fault Refusal := s.done (powerDown lowRc s)

end Sys2Proof.Machine
end

