-- ==== Sys2Proof/Machine/Logs.lean ====
section
/-! DEFINITION. The Threshold's logs: fault reports and their effects (R740 to R750), the Guestbook with attestation
reports (R716 to R718, R723 to R734), the Smoke log (R771), Mirror mode (R760 to R767), and the end of a job (R681). -/

namespace Sys2Proof.Machine

/-! ## The fault log -/

/-- A fault-log record (R746, R747). [DESIGN CHOICE: log 32.] -/
def State.faultRec (s : State) (rp : Report) (seq : Nat) : BitVec 1024 :=
  let g := s.wing (Fin.ofNat 4 rp.wing.toNat)
  BitVec.ofNat 1024 (pack ([(0, 48, seq), (48, 16, rp.code.toNat), (64, 64, s.job.tick.toNat), (128, 64, s.job.stick.toNat),
    (192, 28, min (g.periods - g.perB) (2 ^ 28 - 1)), (220, 4, s.job.js.code), (224, 7, rp.lroom.toNat),
    (232, 2, rp.wing.toNat), (234, 2, rp.cls.toNat), (236, 4, rp.src.toNat), (240, 16, rp.tag.toNat),
    (272, 12, s.ownRank.toNat)] ++ (indexed (rp.body.take 8)).map fun p => (512 + 64 * p.1, 64, p.2.toNat)))

/-- Does a report repeat the latest record (R749)? -/
def State.repeats (s : State) (rp : Report) : Bool :=
  let last := sget s.flt.log (s.flt.count.toNat % 1024)
  decide (s.flt.count ≠ 0#48) && field last 48 16 == rp.code.toNat && field last 224 7 == rp.lroom.toNat &&
    field last 240 16 == rp.tag.toNat && field last 128 64 == s.job.stick.toNat

/-- A report is appended, coalesced or dropped (R749, R750). [DESIGN CHOICE: log 29.] -/
def State.logFault (s : State) (rp : Report) : State :=
  let f := s.flt
  let cur := f.count.toNat % 1024
  if s.repeats rp then
    let last := sget f.log cur
    { s with flt := { f with log := sput f.log cur (setField last 256 16 (min (field last 256 16 + 1) 0xFFFF)) } }
  else if rp.lost then { s with flt := { f with dropped := satAdd f.dropped 1, drop := true } }
  else
    let k := f.count.toNat + 1
    let unread := decide (k > 1024 && k - 1024 > f.readMark.toNat)
    { s with flt := { f with
        log := sput f.log (k % 1024) (s.faultRec rp k)
        count := BitVec.ofNat 48 k
        lastCode := if rp.cls = 3 then f.lastCode else rp.code
        overwrite := f.overwrite || unread
        unreadLost := if unread then satAdd f.unreadLost 1 else f.unreadLost } }

/-- The effect of a report's class on the job (R740 to R745). A PEER_FAULTED takes effect at the next boundary (R744). -/
def State.faultEffect (s : State) (rp : Report) : State :=
  let code := rp.code.toNat
  let s := if rp.cls = 2 then { s with flt := { s.flt with held := true } } else s
  if rp.cls = 0 || rp.cls = 3 || code = 0x700E then s
  else match s.job.js with
    | .loaded | .running | .draining | .done => enterFaulted code true s
    | .loading => if rp.cls = 2 then s.refuseLoad 0x0F01 0 else s
    | _ => s

/-- A report arrives: its record, its Guestbook event, its effect, and a Doorplate when FAULT_CODE changes (R683, R740, R749). [DESIGN CHOICE: log 29.] -/
def State.takeReport (s : State) (rp : Report) : State :=
  let old := s.flt.jobCode
  let s := (if rp.cls = 3 then s else s.gbFault rp).logFault rp
  let s := if rp.cls = 3 then s else { s with flt := { s.flt with jobCode := rp.code } }
  let s := s.faultEffect rp
  if rp.cls ≠ 3 && old ≠ rp.code then s.doorplate else s

/-- FAULT_REPORT_ARRIVE: the report at the head of the queue. [DESIGN CHOICE: log 29.] -/
def faultReportArrive (s : State) : State :=
  match s.flt.queue with
  | [] => s
  | rp :: t => ({ s with flt := { s.flt with queue := t } }).takeReport rp

/-! ## Attestation (R716 to R718) -/

/-- The characters of a label. -/
def ascii (t : String) : Bytes := t.toList.map fun c => BitVec.ofNat 8 c.toNat

/-- Bytes 0 to 511 of a report. -/
def State.attestHead (s : State) (nonce : BitVec 256) : Bytes :=
  let b := s.thr.boot
  let g := s.thr.guest
  let w (n : Nat) : Nat := (s.wings.toList.getD n Wing.reset).colGood.toNat
  let bin := s.thr.load.bin
  packBytes 512 [(0, 32, 0x5441584D), (32, 16, 1),
    (48, 16, b2n b.idOk + 2 * b2n s.debugAllow + 4 * b2n s.smoke.debug + 8 * b2n s.thr.clk.outOfStep), (64, 32, 9299),
    (96, 8, s.job.js.code), (104, 8, s.job.smode.toNat), (112, 8, if s.thr.pwr.stepB0 then 2 else 1),
    (120, 8, s.enabledRooms), (128, 256, nonce.toNat), (384, 64, s.job.tick.toNat), (448, 64, b.img.version.toNat),
    (512, 512, b.img.hash.toNat), (1024, 512, b.img.owner.toNat), (1536, 512, (Config.romHash 0).toNat),
    (2048, 512, match bin with | some x => x.hash.toNat | none => 0),
    (2560, 64, match bin with | some x => x.imageId.toNat | none => 0), (2624, 64, g.count.toNat),
    (2688, 512, g.head.toNat), (3200, 16, w 0), (3216, 16, w 1), (3232, 16, w 2), (3248, 16, w 3),
    (3264, 64, g.oldest.toNat), (3328, 512, g.anchor.toNat)]

/-- The report as 37 lines of 256 bytes: keys and signature are zero without identity (R718). [PRESUMED: log 6; DESIGN CHOICE: log 32.] -/
def State.attestBytes (s : State) (nonce : BitVec 256) : Bytes :=
  let head := s.attestHead nonce
  let b := s.thr.boot
  let signed := head ++ slice b.idpk 0 2592 ++ slice b.ek 0 1568
  let all := if b.idOk then signed ++ slice (Config.mldsaSign b.idsk signed (ascii "MXN9-ATT")) 0 4627 else head
  slice all 0 9472

/-- The report of an ATTEST card leaves, when its record is appended. -/
def State.sendAttest (s : State) (c : JobCard) : State :=
  let bs := s.attestBytes c.arg3
  (List.range 37).foldl (fun s i =>
    s.palReq (.attest c.slot c.seq) 0x02 (c.arg0.toNat + 256 * i - compBase) true (slice bs (256 * i) 256) false) s

/-! ## The Guestbook -/

/-- A record of an event (R724). -/
def GbEvent.record (e : GbEvent) (seq part : Nat) : BitVec 512 :=
  BitVec.ofNat 512 (pack [(0, 48, seq), (48, 8, e.event), (56, 4, e.origin), (60, 2, part), (62, 2, e.parts - 1),
    (64, 64, e.tick.toNat), (128, 28, e.gc), (156, 4, e.js), (160, 3, e.smode), (164, 12, e.oid), (176, 2, e.wing),
    (192, 320, getLE (slice e.body (40 * part) 40) 0 40)])

/-- One record is stored and chained (R727, R730, R732). [PRESUMED: log 6.] -/
def State.gbStore (s : State) (e : GbEvent) (part : Nat) : State :=
  let g := s.thr.guest
  let k := g.count.toNat + 1
  let i := k % 4096
  let rcd := e.record k part
  let h := Config.sha3 (leBytes 64 g.head.toNat ++ leBytes 64 rcd.toNat)
  let past := decide (k > 4096)
  let unread := past && decide (k - 4096 > g.readMark.toNat)
  let g := { g with
    count := BitVec.ofNat 48 k
    head := h
    anchor := if past then sget g.hashes i else g.anchor
    oldest := if past then BitVec.ofNat 48 (k - 4095) else 1
    recs := sput g.recs i rcd
    hashes := sput g.hashes i h
    overwrite := g.overwrite || unread
    unreadLost := if unread then satAdd g.unreadLost 1 else g.unreadLost }
  let s := { s with thr := { s.thr with guest := g } }
  if unread then s.raise 0x9005 0 5 0 0 [BitVec.ofNat 64 (k - 4096)] else s

/-- The event at the head of the pending queue is appended with all its parts; an ATTEST record releases its report
(R717). -/
def State.gbAppend (s : State) : State :=
  match s.thr.guest.queue with
  | [] => s
  | e :: t =>
    let s := { s with thr := { s.thr with guest := { s.thr.guest with queue := t } } }
    let s := (List.range e.parts).foldl (fun s p => s.gbStore e p) s
    if e.event ≠ 0x0F then s
    else match s.pal.attests with
      | [] => s
      | c :: cs => ({ s with pal := { s.pal with attests := cs } }).sendAttest c

/-- GUESTBOOK_APPEND: at most once every 64 Threshold cycles, which are 16 rc (R730), and only after the BOOT record
(R729). [DESIGN CHOICE: log 28.] -/
def guestbookAppend (s : State) : State :=
  if !s.thr.guest.booted || decide (s.rc < s.thr.guest.nextAt) then s
  else
    let s := s.gbAppend
    { s with thr := { s.thr with guest := { s.thr.guest with nextAt := s.rc + 16 } } }

/-! ## The Smoke log -/

/-- SMOKE_LOG_APPEND. -/
def smokeLogAppend (s : State) : State :=
  match s.smoke.queue with
  | [] => s
  | q :: t => { s with smoke := { s.smoke with
      queue := t, log := sput s.smoke.log (s.smoke.count.toNat % 2048) q, count := satAdd s.smoke.count 1 } }

/-! ## Mirror mode -/

/-- MIRROR_LAG (R764). -/
def State.mirrorDrop (s : State) : State :=
  let d := satAdd s.mir.dropped 1
  ({ s with mir := { s.mir with dropped := d, lag := true } }).raise 0xA003 0 5 0 0 [d.zeroExtend 64]

/-- The first mismatch (R765): STOP_TICK is computed and sent; the logs stop. After a STOP_TICK of the other twin the
mismatch is only kept for R766. -/
def State.mirrorStop (s : State) (own twin : MirrorRec) : State :=
  if s.mir.stopTick ≠ 0#64 then
    if s.mir.bad.isSome then s else { s with mir := { s.mir with bad := some (own, twin) } }
  else
    let st := BitVec.ofNat 64 (max s.job.tick.toNat (max twin.tick.toNat s.mir.twinTick.toNat) + 2)
    { s with mir := { s.mir with mismatch := true, stopTick := st, stopSent := some st, bad := some (own, twin) } }

/-- A record meets the other twin's store (R764). [DEDUCED: log 44.] -/
def State.mirrorMeet (s : State) (m : MirrorRec) (mine : Bool) : State :=
  let other := if mine then s.mir.twin else s.mir.own
  let same (x : MirrorRec) : Bool := x.stick == m.stick && x.w == m.w && x.lroom == m.lroom
  match other.find? same with
  | some x =>
    let rest := delFirst same other
    let s := if mine then { s with mir := { s.mir with twin := rest } } else { s with mir := { s.mir with own := rest } }
    if x.lines = m.lines && x.crc = m.crc then { s with mir := { s.mir with matched := satAdd s.mir.matched 1 } }
    else if mine then s.mirrorStop m x else s.mirrorStop x m
  | none =>
    let store := if mine then s.mir.own else s.mir.twin
    if store.length ≥ 8192 then s.mirrorDrop
    else if mine then { s with mir := { s.mir with own := store ++ [m] } }
    else { s with mir := { s.mir with twin := store ++ [m] } }

/-- A record of this twin is sent and compared. -/
def State.mirrorSend (s : State) (m : MirrorRec) : State :=
  ({ s with mir := { s.mir with sent := s.mir.sent ++ [m] } }).mirrorMeet m true

/-- The record of a Room's present window, and the next window (R761 to R763). -/
def State.mirrorClose (s : State) (r : RoomId) : State :=
  let m := (s.room r).mirror
  let s := s.modRoom r fun rm => { rm with mirror := { rm.mirror with win := m.win + 1, lines := 0, crc := BitVec.allOnes 64 } }
  s.mirrorSend { stick := s.job.stick, w := BitVec.ofNat 16 m.win, lroom := BitVec.ofNat 7 r.val, lines := m.lines,
                 crc := m.crc ^^^ BitVec.allOnes 64, tick := s.job.tick }

/-- Has the Room's present window ended (R763): its last schedule cycle is past, or the Room has completed its tick, the
schedule cycles after which belong to no window? -/
def State.windowOver (s : State) (r : RoomId) : Bool :=
  let g := s.wing (wingOf r)
  let rm := s.room r
  let finished := !rm.seq.issuing && rm.queues.toList.all (·.isEmpty) && decide (rm.seq.doneAt ≤ g.acyc)
  if finished then decide (1024 * rm.mirror.win < rm.seq.doneAt - g.ac0)
  else decide (1024 * (rm.mirror.win + 1) ≤ g.acyc - g.ac0)

/-- MIRROR_WINDOW_CLOSE. -/
def mirrorWindowClose (r : RoomId) (s : State) : State :=
  if !s.mir.enable || s.job.js ≠ .running || !(s.room r).on || !(s.windowOver r) then s else s.mirrorClose r

/-- MIRROR_RECORD_RECEIVE. -/
def mirrorRecordReceive (m : MirrorRec) (s : State) : State :=
  if !s.mir.enable then s
  else ({ s with mir := { s.mir with twinTick := m.tick } }).mirrorMeet m false

/-- MIRROR_STOP_TICK_RECEIVE. -/
def mirrorStopTickReceive (st : BitVec 64) (s : State) : State :=
  if !s.mir.enable then s
  else { s with mir := { s.mir with mismatch := true, stopTick := if s.mir.stopTick.ult st then st else s.mir.stopTick } }

/-- MIRROR_LOG_EXCHANGE (R766). -/
def mirrorLogExchange (twin : List MirrorLogEntry) (whole : Bool) (s : State) : State :=
  match s.mir.bad with
  | none => s
  | some (own, _) =>
    let log := (s.room (Fin.ofNat 96 own.lroom.toNat)).mirror.log
    let mine := (log.filter fun e => e.1 == own.stick && e.2.1 == own.w.toNat).map (·.2.2)
    let n := max mine.length twin.length
    if !whole || mine.length ≠ own.lines.toNat then
      { s with mir := { s.mir with located := false, index := 0, tag := 0, scyc := 0 } }
    else match (List.range n).find? fun i => mine[i]? != twin[i]? with
      | none => s
      | some i =>
        let cyc (e : Option MirrorLogEntry) : BitVec 32 := match e with
          | some x => BitVec.ofNat 32 (1024 * own.w.toNat + x.offset.toNat)
          | none => 0
        let tag (e : Option MirrorLogEntry) : BitVec 16 := match e with
          | some x => x.tag
          | none => 0
        { s with mir := { s.mir with
            located := true, index := i, tag := tag mine[i]?, scyc := cyc mine[i]?, twinTag := tag twin[i]?,
            twinScyc := cyc twin[i]? } }

/-- The port that Mirror mode names. -/
def State.mirrorPort (s : State) : Port := (s.porch (porchOf s.mir.port)).port (portIn s.mir.port)

/-- MIRROR_LINK_LOST. -/
def mirrorLinkLost (discarded : Nat) (s : State) : State :=
  let q := s.mirrorPort
  if !s.mir.enable || q.live || q.lost || decide (s.rc < q.downSince + s.linkLost) then s
  else
    let s := s.modPorch (porchOf s.mir.port) fun x => x.setPort (portIn s.mir.port) { q with lost := true }
    s.raise 0xA002 1 5 0 0 [BitVec.ofNat 64 s.mir.port.val, BitVec.ofNat 64 discarded]

/-- The report of a mismatch (R752). -/
def State.mirrorReport (s : State) : State :=
  let m := s.mir
  let a := match m.bad with
    | some x => [x.1.stick, x.1.w.zeroExtend 64, x.1.crc, x.2.crc]
    | none => [0, 0, 0, 0]
  s.raise 0xA001 1 5 0 m.tag (a ++ [BitVec.ofNat 64 (b2n m.located + 2 ^ 32 * m.index), m.scyc.zeroExtend 64,
    m.twinTag.zeroExtend 64, m.twinScyc.zeroExtend 64])

/-! ## The end of a job, and of power -/

/-- The conditions of R681 for DONE. -/
def State.drained (s : State) : Bool :=
  let noEng (e : Engine) : Bool := e.queue.isEmpty && e.cur.isNone
  let outlet (u : Option PUse) : Bool := match u with
    | some (.outlet _) => true
    | some (.put _) => true
    | some (.engine _ _) => true
    | _ => false
  s.mem.reqs.isEmpty && s.mem.cellars.toList.all (fun k => noEng k.xpose && noEng k.gs) &&
    s.rooms.toList.all (fun rm => rm.out.buf.isEmpty && rm.out.trk.all fun t => t.count == 0#16) &&
    s.fab.porches.toList.all (fun p => p.contrib.isEmpty && p.coll.toList.all fun c => c.insts.isEmpty) &&
    !(s.pal.reqs.any fun q => q.op == 2 && outlet (some q.use)) &&
    !(s.pal.waiting.any fun m => m.op == 2 && outlet m.use)

/-- JOB_DONE. -/
def jobDone (s : State) : State := if s.job.js = .draining && s.drained then s.setState .done 0 else s

/-- ALWAYS_ON_POWER_LOSS (R711): every domain has lost its contents; what the package is stays. [DEDUCED: log 27.] -/
def alwaysOnPowerLoss (s : State) : State :=
  let p := { Power.reset with grade96 := s.thr.pwr.grade96, stepB0 := s.thr.pwr.stepB0, rg := s.thr.pwr.rg }
  { State.reset with
    pending := s.pending, now := s.now, rc := s.rc, free := s.free, job := { Job.reset with js := .off }
    thr := { Thr.reset with pwr := p } }

/-! ## The commands -/

def execFaultReportArrive (s : State) : Host.Outcome State Fault Refusal := s.done (faultReportArrive s)
def execGuestbookAppend (s : State) : Host.Outcome State Fault Refusal := s.done (guestbookAppend s)
def execSmokeLogAppend (s : State) : Host.Outcome State Fault Refusal := s.done (smokeLogAppend s)
def execMirrorWindowClose (r : RoomId) (s : State) : Host.Outcome State Fault Refusal := s.done (mirrorWindowClose r s)
def execMirrorRecordReceive (m : MirrorRec) (s : State) : Host.Outcome State Fault Refusal :=
  s.done (mirrorRecordReceive m s)
def execMirrorStopTickReceive (st : BitVec 64) (s : State) : Host.Outcome State Fault Refusal :=
  s.done (mirrorStopTickReceive st s)
def execMirrorLogExchange (twin : List MirrorLogEntry) (whole : Bool) (s : State) : Host.Outcome State Fault Refusal :=
  s.done (mirrorLogExchange twin whole s)
def execMirrorLinkLost (discarded : Nat) (s : State) : Host.Outcome State Fault Refusal :=
  s.done (mirrorLinkLost discarded s)
def execJobDone (s : State) : Host.Outcome State Fault Refusal := s.done (jobDone s)
def execAlwaysOnPowerLoss (s : State) : Host.Outcome State Fault Refusal := s.done (alwaysOnPowerLoss s)

end Sys2Proof.Machine
end

