-- ==== Sys2Proof/Machine/Boot.lean ====
section
/-! DEFINITION. Boot (R693 to R710, R735, R739, R829 to R831): configuration images, identity, and the domains of SELF-TEST. -/

namespace Sys2Proof.Machine

/-! ## Blocks of a configuration image (R696 to R704) -/

/-- A directory entry of an image (R373, R697). -/
structure Blk where
  typ    : Nat
  target : Nat
  off    : Nat
  len    : Nat
  hash   : BitVec 512
  rsv    : Bool
  deriving DecidableEq, Repr, Inhabited

def parseBlk (bs : Bytes) : Blk :=
  { typ := recBits bs 0 16, target := recBits bs 16 7, off := getLE bs 8 8, len := getLE bs 16 4,
    hash := BitVec.ofNat 512 (getLE bs 32 64),
    rsv := recBits bs 23 41 != 0 || getLE bs 20 4 != 0 || getLE bs 24 8 != 0 }

/-- Words of `n` bytes of a block. -/
def blkWords (w n : Nat) (bs : Bytes) : List (BitVec w) :=
  (List.range (bs.length / n)).map fun i => BitVec.ofNat w (getLE bs (n * i) n)

/-- Each entry and the next satisfy `p`. -/
def eachNext {α : Type} (p : α → α → Bool) : List α → Bool
  | [] => true
  | [_] => true
  | a :: b :: t => p a b && eachNext p (b :: t)

/-- Does a DVFS block break R117? -/
def dvfsBad (bs : Bytes) : Bool :=
  let es := blkWords 64 8 bs
  bs.length % 8 != 0 || es.isEmpty || decide (es.length > 16) ||
    es.any (fun e => decide (field e 0 5 < 12) || decide (field e 0 5 > 25) || field e 5 3 != 0 || field e 20 4 != 0 ||
      field e 48 16 != 0) ||
    !(eachNext (fun (a b : BitVec 64) => decide (field a 0 5 < field b 0 5) && decide (field a 8 12 ≤ field b 8 12)) es)

/-- Does a throttle table break R119? -/
def throttleBad (bs : Bytes) : Bool :=
  let es := blkWords 32 4 bs
  bs.length % 4 != 0 || es.isEmpty || decide (es.length > 8) ||
    es.any (fun e => decide (field e 12 8 > 192) || field e 20 12 != 0) ||
    !(eachNext (fun (a b : BitVec 32) => decide (field a 0 12 < field b 0 12)) es)

/-- Does a parameter block break R699, given the ratios of the DVFS block? -/
def paramBad (bs : Bytes) (ratios : List Nat) : Bool :=
  let p := BitVec.ofNat 512 (leNat bs)
  let within (lo len a b : Nat) : Bool := decide (a ≤ field p lo len) && decide (field p lo len ≤ b)
  bs.length != 64 || field p 20 4 != 0 || bit p 31 || field p 256 256 != 0 || !(within 0 20 100 1000000) ||
    !(ratios.contains (field p 24 5)) || !(within 32 32 1000 4000000000) || decide (field p 64 32 < 100) ||
    decide (field p 64 32 ≥ field p 32 32) || !(within 96 32 600000 4000000000) || decide (field p 128 32 < 1000) ||
    decide (field p 192 32 < 100)

/-- Does a power-sequencing block break R701? -/
def pwrseqBad (bs : Bytes) : Bool :=
  let es := blkWords 64 8 bs
  bs.length != 32 || (indexed es).any fun e =>
    field e.2 0 4 != e.1 || field e.2 4 4 != 0 || field e.2 20 12 != 0 || field e.2 48 16 != 0

/-- The rights that an SKIND may hold (R713). -/
def rightsOf (skind : Nat) : Nat :=
  match skind with
  | 0 => 0x007F
  | 1 => 0x1F80
  | 2 => 0x1F94
  | 3 => 0x0D80
  | 4 => 0x0B86
  | _ => 0x2000

/-- Does a privilege table break R698, R712 or R713? -/
def privBad (bs : Bytes) : Bool :=
  let es := blkWords 64 8 bs
  bs.length % 8 != 0 || es.isEmpty || decide (es.length > 64) || es.any fun e =>
    let k := field e 0 4
    let lo := field e 8 12
    let hi := field e 20 12
    let top := if k = 0 then 63 else if k = 4 then 4095 else if k = 5 then 7 else 0
    decide (k > 5) || field e 4 4 != 0 || decide (hi < lo) || decide (hi > top) || field e 48 16 != 0 ||
      (field e 32 16 ||| rightsOf k) != rightsOf k

/-- A rank entry of a RANKDEF block as the rank table holds it (R644, R700). -/
def rankOf (e : Nat) : BitVec 64 := BitVec.ofNat 64 (nbits e 0 25 * 2 ^ 16)

/-- Does a RANKDEF block break R700? [DEDUCED: log 26.] -/
def rankdefBad (bs : Bytes) : Bool :=
  let cfg := BitVec.ofNat 128 (getLE bs 0 16)
  let n := field cfg 12 13
  let size (d : Nat) : Nat := field cfg (40 + 6 * d) 6 + 1
  let es := (List.range n).map fun i => getLE bs (48 + 4 * i) 4
  let valid := es.filter fun e => nbits e 24 1 == 1
  let coords := valid.map fun e => nbits e 0 24
  let port (i : Nat) : Nat := getLE bs (16 + i) 1
  n == 0 || decide (n > 4096) || bs.length != 48 + 4 * n || field cfg 25 3 != 0 || field cfg 69 59 != 0 ||
    decide (field cfg 0 12 ≥ n) || decide (field cfg 28 12 ≥ n) || nbits (es.getD (field cfg 0 12) 0) 24 1 == 0 ||
    nbits (es.getD (field cfg 28 12) 0) 24 1 == 0 || decide (field cfg 64 5 < 4) || es.any (fun e => nbits e 25 7 != 0) ||
    valid.any (fun e => [0, 1, 2, 3].any fun d => decide (nbits e (6 * d) 6 ≥ size d)) || !(noDup coords) ||
    (List.range 32).any fun i => nbits (port i) 4 4 != 0 || (nbits (port i) 0 1 == 1 && size (nbits (port i) 1 2) == 1)

/-! ## One image (R703, R704) -/

/-- The bytes of an NVM device from an offset; none where the device does not answer. -/
def nvmRead (d : Nvm) (off len : Nat) : Option Bytes :=
  if off + len ≤ d.image.length then some (slice d.image off len) else none

/-- What the first pass finds of an image: its version, the signed bytes, its blocks and its owner keys. -/
structure Cand where
  version : Nat
  signed  : Bytes
  blks    : List Blk
  owner   : Bytes
  deriving Repr

/-- Do two blocks overlap, or are both the one block of their type and slot? -/
def Blk.clash (a b : Blk) : Bool :=
  (a.len != 0 && b.len != 0 && decide (a.off < b.off + b.len) && decide (b.off < a.off + a.len)) ||
    (a.typ == b.typ && (decide (a.typ ≤ 8) || a.target == b.target))

def blkClashes : List Blk → Bool
  | [] => false
  | a :: t => t.any a.clash || blkClashes t

/-- Does the directory break R696 to R698? [DEDUCED: log 25.] -/
def cfgLayoutBad (hd pad : Bytes) (bs : List Blk) (mend imgLen : Nat) : Bool :=
  getLE hd 24 104 != 0 || decide (imgLen > 1048576) || decide (mend > imgLen) || pad.any (· != 0#8) ||
    bs.any (fun b => b.rsv || b.typ == 0 || decide (b.typ > 10) || b.off % 256 != 0 || decide (b.off < mend) ||
      decide (b.off + b.len > imgLen) ||
      (if b.typ = 9 then decide (b.target > 63) else if b.typ = 10 then decide (b.target > 31) else b.target != 0)) ||
    blkClashes bs || !([1, 2, 3, 4, 5, 6, 7, 8].all fun t => bs.any fun b => b.typ == t)

/-- The checks of the first pass: the reason, or the candidate. [PRESUMED: log 6.] -/
def cfgCandidate (d : Option Nvm) : Nat ⊕ Cand :=
  match d with
  | none => .inl 0x0C01
  | some d =>
    match nvmRead d 0 128 with
    | none => .inl 0x0C01
    | some hd =>
      let n := getLE hd 6 2
      let mend := 256 * cdiv (128 + 96 * n + 4627) 256
      if getLE hd 0 4 ≠ 0x4643584D || getLE hd 4 2 ≠ 1 then .inl 0x0C02
      else if n = 0 || n > 256 then .inl 0x0C03
      else match nvmRead d 128 (mend - 128) with
        | none => .inl 0x0C01
        | some rest =>
          let dir := slice rest 0 (96 * n)
          let bs := (List.range n).map fun i => parseBlk (slice dir (96 * i) 96)
          if cfgLayoutBad hd (rest.drop (96 * n + 4627)) bs mend (getLE hd 16 8) then .inl 0x0C03
          else match bs.find? fun b => b.typ == 6 with
            | none => .inl 0x0C03
            | some o => match nvmRead d o.off o.len with
              | none => .inl 0x0C01
              | some keys =>
                if Config.sha3 keys ≠ o.hash || o.len % 2592 ≠ 0 || o.len < 2592 || o.len > 20736 then .inl 0x0C04
                else if !(Config.mldsaVerify (slice keys 0 2592) (hd ++ dir) [] (slice rest (96 * n) 4627)) then .inl 0x0C05
                else .inr { version := getLE hd 8 8, signed := hd ++ dir, blks := bs, owner := keys }

/-- An image as its second pass leaves it: the image in use, its tables, and its rank defaults. -/
structure CfgLoaded where
  img     : CfgImage
  ptabs   : List (Nat × PTable)
  ctabs   : List (Nat × CTable)
  rankdef : Bytes
  deriving Repr

/-- The checks of the second pass (R703): every block read and hashed, then its contents. [PRESUMED: log 6.] -/
def cfgLoad (d : Nvm) (c : Cand) : Nat ⊕ CfgLoaded :=
  let data (b : Blk) : Bytes := slice d.image b.off b.len
  let one (t : Nat) : Bytes := match c.blks.find? fun b => b.typ == t with
    | some b => data b
    | none => []
  let all (t : Nat) : List Blk := c.blks.filter fun b => b.typ == t
  let dvfs := blkWords 64 8 (one 2)
  let ps := (all 9).map fun b => (b.target, parsePtab (data b) false)
  let cs := (all 10).map fun b => (b.target, parseCtab (data b) false)
  if c.blks.any fun b => decide (b.off + b.len > d.image.length) then .inl 0x0C01
  else if c.blks.any fun b => Config.sha3 (data b) != b.hash then .inl 0x0C06
  else if dvfsBad (one 2) || throttleBad (one 3) || throttleBad (one 4) || ps.any (fun p => p.2.isNone) ||
      cs.any (fun p => p.2.isNone) then .inl 0x0C07
  else if paramBad (one 1) (dvfs.map fun e => field e 0 5) || pwrseqBad (one 5) then .inl 0x0C08
  else if privBad (one 7) then .inl 0x0C09
  else if rankdefBad (one 8) then .inl 0x0C0A
  else
    let img : CfgImage :=
      { param := BitVec.ofNat 512 (leNat (one 1)), dvfs := dvfs, therm := blkWords 32 4 (one 3), power := blkWords 32 4 (one 4),
        pwrseq := blkWords 64 8 (one 5), keys := (List.range (c.owner.length / 2592)).map fun i => slice c.owner (2592 * i) 2592,
        priv := blkWords 64 8 (one 7), version := BitVec.ofNat 64 c.version, hash := Config.sha3 c.signed,
        owner := Config.sha3 (slice c.owner 0 2592) }
    let ptabs := ps.filterMap fun p => p.2.map fun t => (p.1, t)
    let ctabs := cs.filterMap fun p => p.2.map fun t => (p.1, t)
    .inr { img := img, ptabs := ptabs, ctabs := ctabs, rankdef := one 8 }

/-- What the selection of R703 finds: the image with its source, the reasons, and whether an image tried first failed. -/
structure CfgPick where
  use      : Option (Bool × CfgLoaded)
  reasonA  : Nat
  reasonB  : Nat
  fellBack : Bool
  deriving Repr

/-- The selection of R703. [DEDUCED: log 25.] -/
def cfgSelect (a b : Option Nvm) : CfgPick :=
  let ca := cfgCandidate a
  let cb := cfgCandidate b
  let load (d : Option Nvm) (c : Nat ⊕ Cand) : Nat ⊕ CfgLoaded := match d, c with
    | some d, .inr c => cfgLoad d c
    | _, .inl r => .inl r
    | none, _ => .inl 0x0C01
  let firstFail (c : Nat ⊕ Cand) : Nat := match c with
    | .inl r => r
    | .inr _ => 0
  let bFirst := match ca, cb with
    | .inr x, .inr y => decide (y.version > x.version)
    | .inl _, .inr _ => true
    | _, _ => false
  let la := load a ca
  let lb := load b cb
  if bFirst then match lb with
    | .inr x => { use := some (true, x), reasonA := firstFail ca, reasonB := 0, fellBack := firstFail ca != 0 }
    | .inl rb => match la with
      | .inr x => { use := some (false, x), reasonA := 0, reasonB := rb, fellBack := true }
      | .inl ra => { use := none, reasonA := ra, reasonB := rb, fellBack := false }
  else match la with
    | .inr x => { use := some (false, x), reasonA := 0, reasonB := firstFail cb, fellBack := false }
    | .inl ra => match lb with
      | .inr x => { use := some (true, x), reasonA := ra, reasonB := 0, fellBack := true }
      | .inl rb => { use := none, reasonA := ra, reasonB := rb, fellBack := false }

/-! ## Identity (R706 to R710) -/

/-- The device seed that a helper record yields, when it passes (R708). [DESIGN CHOICE: log 7.] -/
def seedOf (puf : Bytes) (d : Option Nvm) : Option Bytes :=
  match d with
  | none => none
  | some d =>
    let s := slice (Config.fuzzyExtract puf d.helper) 0 32
    if slice (Config.shake (s ++ ascii "MXN9-CHK") 32) 0 32 = slice (Config.helperCheck d.helper) 0 32 then some s else none

/-- Boot steps 1 to 4: seed, image and keys. [PRESUMED: log 6.] -/
def identity (b : BootIn) (k : CfgPick) : Boot :=
  let sa := seedOf b.puf b.nvmA
  let sb := seedOf b.puf b.nvmB
  let seed := if sa.isSome then sa else sb
  let img := match k.use with
    | some u => u.2.img
    | none => CfgImage.reset
  let base : Boot :=
    { Boot.reset with
      src := match k.use with | some u => u.1 | none => false
      valid := k.use.isSome, reasonA := BitVec.ofNat 16 k.reasonA, reasonB := BitVec.ofNat 16 k.reasonB, img := img
      helperSrc := sa.isNone && sb.isSome }
  match seed with
  | none => base
  | some s =>
    let id := Config.mldsaKeyGen (slice (Config.shake (s ++ ascii "MXN9-ID") 32) 0 32)
    let dz := slice (Config.shake (s ++ ascii "MXN9-KEM" ++ leBytes 64 img.owner.toNat) 64) 0 64
    let kem := Config.mlkemKeyGen (slice dz 0 32) (slice dz 32 32)
    let base := { base with idOk := true, seed := s, idpk := id.1, idsk := id.2 }
    if k.use.isSome then { base with ek := kem.1, dk := kem.2 } else base

/-! ## Domains (R701, R830) -/

/-- Every fault report that waits is taken (R742): boot is one step. -/
def State.drainFaults : Nat → State → State
  | 0, s => s
  | n + 1, s => if s.flt.queue.isEmpty then s else State.drainFaults n (faultReportArrive s)

/-- A regulator's code is changed at once: the strobes of boot lie within its step. [DESIGN CHOICE: log 23.] -/
def State.setCode (s : State) (sel : Nat) (code : BitVec 8) : State :=
  if h : sel < 8 then { s with thr := { s.thr with pwr := { s.thr.pwr with codes := s.thr.pwr.codes.set sel code } } } else s

/-- Port bring-up of every enabled port (R622), with the rank defaults as reset values (R700). -/
def porchesUp (b : BootIn) (rankdef : Bytes) (s : State) : State :=
  let cfg := BitVec.ofNat 128 (getLE rankdef 0 16)
  let n := field cfg 12 13
  let entries := sputList [] 0 ((List.range n).map fun i => rankOf (getLE rankdef (48 + 4 * i) 4))
  let portByte (p : PorchId) (i : Nat) : Nat := getLE rankdef (16 + portNo p i) 1
  let port (p : PorchId) (i : Nat) : Port :=
    { Port.reset with enable := nbits (portByte p i) 0 1 == 1, dim := BitVec.ofNat 2 (nbits (portByte p i) 1 2),
                      dir := nbits (portByte p i) 3 1 == 1, downSince := s.rc }
  let fresh (p : PorchId) : Porch :=
    { Porch.reset with cfg := cfg, entries := entries, ports := Vector.ofFn fun i : Fin 16 => port p i.val }
  let s := (s.setPorch 0 (fresh 0)).setPorch 1 (fresh 1)
  let s := { s with thr := { s.thr with pwr := { s.thr.pwr with porch := 3 } } }
  (List.finRange 32).foldl (fun s no =>
    let p := porchOf no
    if ((s.porch p).port (portIn no)).enable then bringUpPort p (portIn no) b.ports[no.val] s else s) s

/-- HBM training (R466): HBM reads as zero, and a stack that fails is reported. -/
def cellarsUp (b : BootIn) (s : State) : State :=
  let s := { s with mem := Mem.reset, thr := { s.thr with pwr := { s.thr.pwr with cellar := 0xF } } }
  (List.range 8).foldl (fun s n =>
    let s := s.modStack n fun k => { k with trained := bit b.trained n, lastWin := s.rc, fixedAt := s.rc, scrubFrom := s.rc }
    if bit b.trained n then s else s.raise 0x5001 2 2 0 0 [BitVec.ofNat 64 (n / 2), BitVec.ofNat 64 n]) s

/-- The domain of one PWRSEQ entry switches on. -/
def domainUp (k : Nat) (b : BootIn) (rankdef : Bytes) (s : State) : State :=
  let pwr (f : Power → Power) (s : State) : State := { s with thr := { s.thr with pwr := f s.thr.pwr } }
  if k = 0 then porchesUp b rankdef s
  else if k = 1 then cellarsUp b s
  else if k = 2 then pwr (fun p => { p with spine := 0xF }) s
  else
    let s := pwr (fun p => { p with palbo := true }) s
    { s with pal := { Palbo.reset with live := b.palboUp, retraining := !b.palboUp, downSince := s.rc } }

/-- PWRSEQ from entry `k` on: the domains whose rails are good switch on; the number of the entry it stops at. -/
def pwrseqRun (b : BootIn) (rankdef : Bytes) : Nat → Nat → State → Nat × State
  | 0, k, s => (k, s)
  | fuel + 1, k, s =>
    if k ≥ 4 then (k, s)
    else if k = 3 && s.param 29 1 = 0 then (4, s.setCode 7 0)
    else
      let mv := field (s.thr.boot.img.pwrseq.getD k 0) 8 12
      let s := if mv = 0 then s else s.setCode (4 + k) (railCode mv)
      if bit s.thr.pwr.rg (4 + k) then pwrseqRun b rankdef fuel (k + 1) (domainUp k b rankdef s) else (k, s)

/-- The Wing rails are requested for BOOT_M. -/
def wingRails (s : State) : State := [0, 1, 2, 3].foldl (fun s n => s.setCode n (railCode (s.vwing s.bootM))) s

/-! ## Rooms (R28 to R33, R112) -/

/-- The columns of which both Rooms passed. -/
def goodCols (pass : BitVec 26) : BitVec 13 :=
  (List.range 13).foldl (fun m c => if bit pass (2 * c) && bit pass (2 * c + 1) then m ||| (1#13 <<< c) else m) 0

/-- The Room map and the Rooms that stay on; ROOM_MAP_SHORT. The Wing clocks run at BOOT_M. -/
def roomsUp (b : BootIn) (s : State) : State :=
  let good (w : Nat) : BitVec 13 := goodCols (b.roomPass.toList.getD w 0)
  let count (w : Nat) : Nat := ((List.range 13).filter fun c => bit (good w) c).length
  let least := [0, 1, 2, 3].foldl (fun n w => min n (count w)) 13
  let want := if s.thr.pwr.grade96 then 12 else 11
  let cols := if least < 11 then 0 else min want least
  let m := s.bootM
  let up (n : Nat) (g : Wing) : Wing :=
    { g with colGood := good n, logCols := BitVec.ofNat 4 cols, roomPass := b.roomPass.toList.getD n 0, m := m,
             period := RCQ / (max m 1), nextEdge := s.nextRef, clockOn := true, lock := true }
  let s := { s with wings := Vector.ofFn fun w : Fin 4 => up w.val (s.wing w) }
  let s := { s with rooms := Vector.ofFn fun r : Fin 96 => Room.reset (decide (r.val < 8 * cols)) }
  if cols = want then s
  else s.raise 0x1001 (if cols = 0 then 2 else 0) 5 0 0 ([0, 1, 2, 3].map fun w => (good w).zeroExtend 64)

/-! ## The end of SELF-TEST (R681, R702 steps 8 and 9) -/

/-- The live fabric ports, one bit each. -/
def State.livePortBits (s : State) : Nat :=
  (List.finRange 32).foldl (fun n no => if ((s.porch (porchOf no)).port (portIn no)).live then n + 2 ^ no.val else n) 0

/-- The stacks that trained, one bit each. -/
def State.trainedBits (s : State) : Nat := (List.range 8).foldl (fun n i => if (s.stack i).trained then n + 2 ^ i else n) 0

/-- SELF-TEST ends in CONFIGURED or, when HELD, in FAULTED. [DEDUCED: log 24.] -/
def leaveSelfTest (s : State) : State :=
  let s := State.drainFaults (s.flt.queue.length + 1) s
  if s.flt.held then s.setState .faulted s.flt.lastCode.toNat else s.setState .configured 0

/-- Steps 8 and 9. -/
def finishBoot (b : BootIn) (s : State) : State :=
  let s := State.drainFaults (s.flt.queue.length + 1) (roomsUp b s)
  let s := (List.range 64).foldl (fun s n => match s.tabs.cfgPtab.toList.getD n none with
    | some t => s.writePtab n (some t) 0
    | none => s) s
  let s := (List.range 32).foldl (fun s n => match s.tabs.cfgCtab.toList.getD n none with
    | some t => s.writeCtab n (some t) 0
    | none => s) s
  let g (w : WingId) : Nat := (s.wing w).colGood.toNat
  let s := s.gbPush 0x02 0 0 1 (packBytes 14 [(0, 16, g 0), (16, 16, g 1), (32, 16, g 2), (48, 16, g 3),
    (64, 8, s.trainedBits), (72, 32, s.livePortBits), (104, 8, b2n s.pal.live)])
  leaveSelfTest { s with thr := { s.thr with boot := { s.thr.boot with parked := none } } }

/-- Step 7 from PWRSEQ entry `k`: it waits where a rail is not good (R831). -/
def bootFrom (k : Nat) (b : BootIn) (rankdef : Bytes) (s : State) : State :=
  let x := pwrseqRun b rankdef 4 k s
  let s := State.drainFaults (x.2.flt.queue.length + 1) x.2
  let park (n : Nat) (s : State) : State :=
    { s with thr := { s.thr with boot := { s.thr.boot with step := n, parked := some b } } }
  if x.1 < 4 then park x.1 s
  else
    let s := wingRails s
    if [0, 1, 2, 3].all fun n => bit s.thr.pwr.rg n then finishBoot b s else park 4 s

/-- The rank defaults of the image in use, as the boot input holds them. -/
def rankdefOf (b : BootIn) : Bytes :=
  match (cfgSelect b.nvmA b.nvmB).use with
  | some u => u.2.rankdef
  | none => []

/-! ## The commands -/

/-- POWER_UP (R702). [DEDUCED: log 24.] -/
def powerUp (b : BootIn) (s : State) : State :=
  if s.thr.pwr.porst then s
  else
    let k := cfgSelect b.nvmA b.nvmB
    let boot := identity b k
    let rg := setField (setField (0 : BitVec 8) 0 4 (if b.wingsOk then 15 else 0)) 4 4 b.railsOk.toNat
    let p := { Power.reset with grade96 := s.thr.pwr.grade96, stepB0 := s.thr.pwr.stepB0, rg := rg, porst := true }
    let z := State.reset
    let t : Tables := match k.use with
      | some u => { z.tabs with
          cfgPtab := u.2.ptabs.foldl (fun v t => if h : t.1 < 64 then v.set t.1 (some t.2) else v) z.tabs.cfgPtab
          cfgCtab := u.2.ctabs.foldl (fun v t => if h : t.1 < 32 then v.set t.1 (some t.2) else v) z.tabs.cfgCtab }
      | none => z.tabs
    let s0 : State :=
      { z with
        pending := s.pending, now := s.now, rc := s.rc, free := s.free, tabs := t
        thr := { Thr.reset with boot := boot, pwr := p, clk := { Clock.reset with refOk := true } } }
    let src := match k.use with
      | some u => b2n u.1
      | none => 0xFF
    let s1 := s0.gbPush 0x01 0 0 4 (packBytes 142 [(0, 512, boot.img.hash.toNat), (512, 512, boot.img.owner.toNat),
      (1024, 64, boot.img.version.toNat), (1088, 8, src), (1096, 8, b2n boot.idOk), (1104, 16, k.reasonA),
      (1120, 16, k.reasonB)])
    let s1 := { s1 with thr := { s1.thr with guest := { s1.thr.guest with booted := true } } }
    let rs := [BitVec.ofNat 64 k.reasonA, BitVec.ofNat 64 k.reasonB]
    let s1 := if boot.idOk then s1 else s1.raise 0x9003 0 5 0 0 [0, 0]
    let s1 := if k.fellBack then s1.raise 0x9001 0 5 0 0 rs else s1
    let s1 := State.drainFaults 2 s1
    match k.use with
    | some u => bootFrom 0 b u.2.rankdef s1
    | none => leaveSelfTest (s1.raise 0x9002 2 5 0 0 rs)

/-- BOOT_RAIL_WAIT_DONE: RG0 to RG3 have asserted. -/
def bootRailWaitDone (s : State) : State :=
  match s.thr.boot.parked with
  | none => s
  | some b =>
    if s.thr.boot.step ≠ 4 then s
    else finishBoot b { s with thr := { s.thr with pwr := { s.thr.pwr with rg := s.thr.pwr.rg ||| 0x0F } } }

/-- RAIL_GOOD_CHANGE: the input changes; boot goes on where it waited for this rail. [DEDUCED: log 21.] -/
def railGoodChange (sel : Fin 8) (level : Bool) (s : State) : State :=
  let s := { s with thr := { s.thr with pwr := { s.thr.pwr with rg := setField s.thr.pwr.rg sel.val 1 (b2n level) } } }
  match s.thr.boot.parked with
  | none => s
  | some b => if level && s.thr.boot.step < 4 && sel.val == 4 + s.thr.boot.step then bootFrom s.thr.boot.step b (rankdefOf b) s else s

def execPowerUp (b : BootIn) (s : State) : Host.Outcome State Fault Refusal := s.done (powerUp b s)
def execBootRailWaitDone (s : State) : Host.Outcome State Fault Refusal := s.done (bootRailWaitDone s)
def execRailGoodChange (sel : Fin 8) (level : Bool) (s : State) : Host.Outcome State Fault Refusal :=
  s.done (railGoodChange sel level s)

end Sys2Proof.Machine
end

