-- ==== Sys2Proof/Machine/Matrix.lean ====
section
/-! DEFINITION. The matrix engine (chapter 05): loading, swapping, streaming into the Hatch. -/

namespace Sys2Proof.Machine

/-! ## Registers -/

/-- The 16 bits of one quadrant in ROOM_MX_TILE (R244). -/
def tileBits (a h : MxBuf) : Nat :=
  pack [(0, 2, a.st.toNat), (2, 2, h.st.toNat), (4, 2, a.smode.toNat), (6, 1, b2n a.sq), (8, 8, a.fmt.toNat)]

/-- ROOM_MX_TILE (R244). -/
def Mx.tileWord (m : Mx) : BitVec 64 :=
  BitVec.ofNat 64 (pack [(0, 16, tileBits m.act[0] m.shd[0]), (16, 16, tileBits m.act[1] m.shd[1]),
    (32, 16, tileBits m.act[2] m.shd[2]), (48, 16, tileBits m.act[3] m.shd[3])])

/-! ## Loads and swaps -/

/-- Loads whose time has come make their shadow buffers READY (R220). -/
def Mx.settle (m : Mx) (cyc : Nat) : Mx :=
  let ready := m.loads.filter (fun l => decide (l.due ≤ cyc))
  let mark (shd : Vector MxBuf 4) (l : MxLoad) : Vector MxBuf 4 :=
    shd.mapFinIdx fun i b _ => if bit l.quads i && b.st == 1#2 then { b with st := 2 } else b
  { m with shd := ready.foldl mark m.shd, loads := m.loads.filter (fun l => decide (cyc < l.due)) }

/-- The exchange of the two buffers of the selected quadrants (R224). -/
def Mx.swap (m : Mx) (q : BitVec 4) : Mx :=
  { m with
    act := m.act.mapFinIdx fun i b h => if bit q i then m.shd[i] else b
    shd := m.shd.mapFinIdx fun i b h => if bit q i then m.act[i] else b }

/-- R226: a selected quadrant with a LOADING shadow buffer refuses the whole swap. [DEDUCED: log 80.] -/
def Mx.swapRefused (m : Mx) (q : BitVec 4) : Bool :=
  [0, 1, 2, 3].any fun i => bit q i && (m.shd.toList.getD i MxBuf.reset).st == 1#2

/-- The first row write of an MLOAD: the buffers become LOADING and lose their tile; the tile that will be READY is held
under the LOADING state (R220). -/
def Mx.startLoad (m : Mx) (bufs : List (Nat × MxBuf)) (ready : Nat) : Mx :=
  { m with
    shd := bufs.foldl (fun v b => if h : b.1 < 4 then v.set b.1 { b.2 with st := 1 } else v) m.shd
    loads := m.loads ++ [{ due := ready, quads := bufs.foldl (fun q b => q ||| (1#4 <<< b.1)) 0#4 }] }

/-- The rows of a load fill the shadow buffers that are LOADING (R218, R220). -/
def Mx.fillLoad (m : Mx) (bufs : List (Nat × MxBuf)) : Mx :=
  { m with shd := m.shd.mapFinIdx fun i b _ => match bufs.find? (fun x => x.1 == i) with
      | some x => if b.st = 1#2 then { x.2 with st := 1 } else b
      | none => b }

/-- A matrix fault: the report, the trace record and SKIP_FAULT (R238, R245). -/
def State.mmFault (s : State) (r : RoomId) (c : BitVec 128) (e : Nat × List (BitVec 64)) : State :=
  (s.modRoom r fun rm => { rm with mx := { rm.mx with skipFault := satAdd rm.mx.skipFault 1 } }).cmdFault r c e.1 e.2

/-! ## Reading rows -/

/-- The scale byte offset of element x of row y: `how` 0 as the descriptor says, 1 for MLOAD with SQ 0, 2 for MLOAD with
SQ 1 (R336). -/
def scaleOffHow (t : Tensor) (how x y : Nat) : Nat :=
  let l := scaleLen t.smode
  match how with
  | 1 => t.sbase + y / l * t.spitch + x
  | 2 => t.sbase + y / l * t.spitch + x / l
  | _ => scaleOff t x y

/-- The scale offsets of elements [x, x + n) of row y. -/
def rowScaleOffs (t : Tensor) (how x n y : Nat) : List Nat :=
  if t.smode = 0 then [] else (List.range n).map fun i => scaleOffHow t how (x + i) y

/-- The element byte range of elements [x, x + n) of row y (R334). -/
def rowRange (bits : Nat) (t : Tensor) (x n y : Nat) : Nat × Nat :=
  let b := elemBytes bits x n
  (t.base + y * t.pitch + b.1, b.2)

/-- The element lines and the scale lines of a row part. -/
def rowLines (bits : Nat) (t : Tensor) (how x n y : Nat) : List Nat × List Nat :=
  let b := rowRange bits t x n y
  (linesOf b.1 b.2, ((rowScaleOffs t how x n y).map (· / 256)).eraseDups)

/-- The accesses of one gc: the element lines, then the scale lines that are not also element lines (R240, R416). -/
def gcLines (els scs : List Nat) : List Nat :=
  let e := els.eraseDups
  e ++ scs.eraseDups.filter (fun l => !e.contains l)

/-- The codes of elements [x, x + n) of row y, which a running command read in schedule cycle `cyc`. -/
def Run.rowCodes (u : Run) (bits : Nat) (t : Tensor) (x n y cyc : Nat) : List Nat :=
  let b := rowRange bits t x n y
  let row := u.bytes cyc b.1 b.2
  let x0 := if bits = 6 then x % 4 else if bits = 4 then x % 2 else 0
  (List.range n).map fun i => elemCode bits row (x0 + i)

/-- The scale values of elements [x, x + n) of row y; a scale from a poisoned line is NaN (R847). -/
def Run.rowScales (u : Run) (t : Tensor) (how x n y cyc : Nat) : List Val :=
  if t.smode = 0 then List.replicate n (.fin false 1 0)
  else (rowScaleOffs t how x n y).map fun o =>
    if u.bad cyc (o / 256) then .nan else scaleVal t.smode ((u.bytes cyc o 1).headD 0).toNat

/-- Did an element line of the row part come poisoned? -/
def Run.rowBad (u : Run) (bits : Nat) (t : Tensor) (x n y cyc : Nat) : Bool :=
  (rowLines bits t 0 x n y).1.any (u.bad cyc)

/-! ## Rates and timing -/

/-- The operand class of a product (R157). -/
def classMax (a b : OpClass) : OpClass :=
  match a, b with
  | .n16, _ | _, .n16 => .n16
  | .n8, _ | _, .n8 => .n8
  | x, _ => x

/-- Class, D and E of a stream command (R200, R212, R216, R844). -/
structure MmTime where
  cls : OpClass
  d   : Nat
  e   : Nat
  deriving DecidableEq, Repr, Inhabited

/-- The start rule of R211 on the stream lane. -/
def Mx.streamReady (m : Mx) (cyc d : Nat) : Bool := decide (m.strFree ≤ cyc) && decide (m.strLast ≤ cyc + d)

/-- The start rule of R211 on the load lane. -/
def Mx.loadReady (m : Mx) (cyc d : Nat) : Bool := decide (m.loadFree ≤ cyc) && decide (m.loadLast ≤ cyc + d)

/-- The stream lane is taken: free after OCC, last entry gc s + D + E − 1 (R211). -/
def Mx.takeStream (m : Mx) (cyc occ last : Nat) : Mx := { m with strFree := cyc + occ, strLast := last }

def Mx.takeLoad (m : Mx) (cyc occ last : Nat) : Mx := { m with loadFree := cyc + occ, loadLast := last }

/-! ## MLOAD (R206, R217 to R223) -/

/-- R217: quadrants, first cell row, first cell column, rows and columns of a region; REGION 7 as region 0. -/
def regionOf (n : Nat) : List Nat × Nat × Nat × Nat × Nat :=
  match n with
  | 1 => ([0, 1], 0, 0, 64, 128)
  | 2 => ([2, 3], 64, 0, 64, 128)
  | 3 => ([0], 0, 0, 64, 64)
  | 4 => ([1], 0, 64, 64, 64)
  | 5 => ([2], 64, 0, 64, 64)
  | 6 => ([3], 64, 64, 64, 64)
  | _ => ([0, 1, 2, 3], 0, 0, 128, 128)

/-- The faults of an MLOAD in the order of R360 and R238. -/
def mloadErr (rm : Room) (tabs : Tables) (c : BitVec 128) : Option (Nat × List (BitVec 64)) :=
  let idx := field c 32 11
  let t := tensorOf (rm.descOf idx)
  let g := regionOf (field c 43 3)
  let sq := bit c 46
  let how := if sq then 2 else 1
  let bits := ((fmtOf tabs.ptab t.fmt).map (·.elem.bits)).getD 8
  let rows := List.range t.yext
  firstErr [
    rm.descErr tabs idx 1 c,
    rangeErr idx (rows.map fun y => rowRange bits t 0 t.xext y),
    rangeErr idx ((rows.map fun y => (rowScaleOffs t how 0 t.xext y).map fun o => (o, 1)).flatten),
    fmtErr tabs t.fmt t.smode 0 true,
    if field c 47 81 ≠ 0 || field c 43 3 = 7 || decide (t.yext > g.2.2.2.1) || decide (t.xext > g.2.2.2.2) ||
        (sq && t.smode = 0) then some (fcMmField, cmdWords c) else none,
    (rows.find? fun y =>
      let l := rowLines bits t how 0 t.xext y
      decide (l.1.length > 1) || decide (l.2.length > 1)).map fun y =>
        (fcMmLayout, [BitVec.ofNat 64 idx, BitVec.ofNat 64 (t.base + y * t.pitch)])]

/-- The tile of one quadrant of a region from the element rows and scale rows read (R218, R221). -/
def quadTile (t : Tensor) (sq : Bool) (q r0 c0 : Nat) (vals scs : List (List Val)) : MxBuf :=
  let qr := 64 * (q / 2) - r0
  let qc := 64 * (q % 2) - c0
  let l := max (scaleLen t.smode) 1
  let rows := min 64 (vals.length - qr)
  let cols := min 64 ((vals.headD []).length - qc)
  let cut (rw : List Val) : List Val := (rw.drop qc).take cols
  { st := 2, fmt := BitVec.ofNat 8 t.fmt, smode := BitVec.ofNat 2 t.smode, sq := sq, rows := rows, cols := cols,
    cells := ((vals.drop qr).take rows).map cut
    scales := if t.smode = 0 then []
      else (List.range (cdiv rows l)).map fun b =>
        let srow := cut (scs.getD (qr + b * l) [])
        if sq then (List.range (cdiv cols l)).map fun k => srow.getD (k * l) .nan else srow }

/-- The effect of an MLOAD that starts in this gc with a true predicate and no fault: its rows are read one per gc, and
from its first row write its target shadow buffers are LOADING (R213, R220). -/
def mloadRun (r : RoomId) (c : BitVec 128) (s : State) : State :=
  let rm := s.room r
  let at0 := s.cyc r
  let desc := rm.descOf (field c 32 11)
  let t := tensorOf desc
  let g := regionOf (field c 43 3)
  let sq := bit c 46
  let el := ((fmtOf s.tabs.ptab t.fmt).map (·.elem)).getD (.flt fp32)
  let acc := ((List.range t.yext).map fun y =>
    let l := rowLines el.bits t (if sq then 2 else 1) 0 t.xext y
    (gcLines l.1 l.2).map fun n => (at0 + y, n)).flatten
  match rm.notReady (tagOf c) false (acc.filter (fun a => a.1 == at0)) with
  | some f => s.freeze r f
  | none =>
    let d := decLat s.tabs t.fmt
    let occ := if g.2.2.2.1 = 128 then 128 else 64
    let cmd : QCmd := { word := c, pred := true }
    let s := s.begin r 3 cmd (d + occ) 1
    let s := s.modRoom r fun rm => { rm with mx := rm.mx.takeLoad at0 occ (at0 + d + occ) }
    let x := s.addRun r { (default : Run) with cmd := cmd, start := at0, descs := [desc] }
    let s := x.2.reads r c x.1 acc
    let s := s.addPend r (at0 + d) c
      (.mxBegin (g.1.map fun q => (q, quadTile t sq q g.2.1 g.2.2.1 [] [])) (at0 + d + occ))
    s.addPend r (at0 + max (t.yext - 1) d) c (.mxFill x.1)

/-- The last row of an MLOAD has been read: its cells and scales fill the LOADING buffers (R218 to R221, R243, R847). -/
def mxFill (r : RoomId) (id : Nat) (s : State) : State :=
  match (s.room r).run id with
  | none => s
  | some u =>
    let c := u.cmd.word
    let t := tensorOf (u.descs.headD 0)
    let g := regionOf (field c 43 3)
    let sq := bit c 46
    let el := ((fmtOf s.tabs.ptab t.fmt).map (·.elem)).getD (.flt fp32)
    let codes := (List.range t.yext).map fun y => u.rowCodes el.bits t 0 t.xext y (u.start + y)
    let p := s.readPtab r c t.fmt el codes.flatten
    let vals := (indexed codes).map fun y =>
      if u.rowBad el.bits t 0 t.xext y.1 (u.start + y.1) || p.1 then y.2.map (fun _ => Val.nan)
      else y.2.map el.decode
    let scs := (List.range t.yext).map fun y => u.rowScales t (if sq then 2 else 1) 0 t.xext y (u.start + y)
    let bufs := g.1.map fun q => (q, quadTile t sq q g.2.1 g.2.2.1 vals scs)
    p.2.modRoom r fun rm => { rm.endRun id with mx := rm.mx.fillLoad bufs }

/-- MLOAD (R206). -/
def mload (r : RoomId) (c : QCmd) (s : State) : State :=
  let rm := s.room r
  let at0 := s.cyc r
  let fmt := (tensorOf (rm.descOf (field c.word 32 11))).fmt
  let d := decLat s.tabs fmt
  let reg := field c.word 43 3
  let occ := if decide (1 ≤ reg) && decide (reg ≤ 6) then 64 else 128
  if !(s.atHead r 3 c) || !(opcodeOf c.word == 1) || !(rm.mx.loadReady at0 d) then s
  else
    let started := (s.begin r 3 c (d + occ) 1).modRoom r fun rm =>
      { rm with mx := rm.mx.takeLoad at0 occ (at0 + d + occ) }
    if !c.pred then started.skipEcc r c.word [field c.word 32 11]
    else match mloadErr rm s.tabs c.word with
      | some e =>
        if e.1 = fcFormat || e.1 = fcMmField || e.1 = fcMmLayout then started.mmFault r c.word e
        else started.descFault r c.word e
      | none => mloadRun r c.word s

/-- MLOAD_TILE_READY (R220): buffers whose load is complete become READY. -/
def mloadTileReady (r : RoomId) (s : State) : State :=
  s.modRoom r fun rm => { rm with mx := rm.mx.settle (s.cyc r) }

/-- MSWAP (R207, R224, R226, R238). -/
def mswap (r : RoomId) (c : QCmd) (s : State) : State :=
  let at0 := s.cyc r
  if !(s.atHead r 3 c) || !(opcodeOf c.word == 2) || !((s.room r).mx.streamReady at0 0) then s
  else
    let s := (s.begin r 3 c 1 0).modRoom r fun rm => { rm with mx := (rm.mx.settle at0).takeStream at0 1 (at0 + 1) }
    let q := c.word.extractLsb' 32 4
    if !c.pred then s
    else if field c.word 36 92 ≠ 0 then s.mmFault r c.word (fcMmField, cmdWords c.word)
    else if (s.room r).mx.swapRefused q then s.mmFault r c.word (fcMmNotReady, [(s.room r).mx.tileWord])
    else s.modRoom r fun rm => { rm with mx := rm.mx.swap q }

/-! ## Stream commands (R208, R209, R227 to R240) -/

/-- The elements of a moving row that the Intake reads, as parts (first element, count) read in one gc each (R203,
R209). -/
def mmParts (op : Nat) (cls : OpClass) (t : Tensor) : List (Nat × Nat) :=
  let n := min t.xext (if op = 7 then 256 else 128)
  if op = 7 && cls = .n16 then [(0, min n 128), (128, n - 128)] else [(0, n)]

/-- The gc after the start in which part `p` of moving row `i` is read (R213). -/
def mmReadAt (op : Nat) (cls : OpClass) (i p : Nat) : Nat :=
  match cls with
  | .n16 => 4 * i + p
  | .s6 => if op = 6 || op = 7 then i else i / 2
  | _ => i

/-- The gc after the first entry gc that is the entry gc of row `i` (R200 to R202). -/
def mmEntryAt (op : Nat) (cls : OpClass) (i : Nat) : Nat :=
  match cls with
  | .n16 => 4 * i + 3
  | .s6 => if op = 6 || op = 7 then i else i / 2
  | _ => i

/-- The element and scale lines that a stream command reads, by gc after its start. -/
def mmLines (op m : Nat) (cls : OpClass) (bits : Nat) (t : Tensor) : List (Nat × List Nat × List Nat) :=
  let one := ((List.range m).map fun i => (indexed (mmParts op cls t)).map fun p =>
    (mmReadAt op cls i p.1, rowLines bits t 0 p.2.1 p.2.2 i)).flatten
  let gcs := (one.map Prod.fst).eraseDups
  gcs.map fun g =>
    let here := one.filter (fun o => o.1 == g)
    (g, ((here.map fun o => o.2.1).flatten).eraseDups, ((here.map fun o => o.2.2).flatten).eraseDups)

/-- The first Pantry byte that a stream command reads in the gc `g` after its start. [DEDUCED: log 80.] -/
def mmFirstByte (op m : Nat) (cls : OpClass) (bits : Nat) (t : Tensor) (g : Nat) : Nat :=
  let one := ((List.range m).map fun i => (indexed (mmParts op cls t)).map fun p =>
    (mmReadAt op cls i p.1, (rowRange bits t p.2.1 p.2.2 i).1)).flatten
  ((one.find? fun o => o.1 == g).map Prod.snd).getD t.base

/-- The quadrants that each shape combines into one product (R227). [DEDUCED: log 80.] -/
def mmCombos (op : Nat) : List (List Nat) :=
  match op with
  | 6 => [[0, 1], [2, 3]]
  | 7 => [[0], [1], [2], [3]]
  | _ => [[0, 1, 2, 3]]

/-- MM_FIELD of a stream command: a reserved bit or a limit of R209 broken. [DEDUCED: log 80.] -/
def mmFieldBad (c : BitVec 128) (t : Tensor) : Bool :=
  let op := opcodeOf c
  let m := field c 56 7 + 1
  let k := field c 64 7 + 1
  let n := field c 72 7 + 1
  let row0 := field c 80 7
  let hsa := field c 43 2
  let hsb := field c 45 2
  field c 49 3 != 0 || bit c 63 || bit c 71 || bit c 79 || field c 87 41 != 0 || decide (row0 + m > 128) ||
    decide (m > t.yext) ||
    (match op with
     | 6 => decide (k > 64) || hsa == hsb || decide (t.xext < 64 + k)
     | 7 => decide (k > 64) || decide (n > 64) || hsa == hsb || decide (t.xext < 192 + k)
     | _ => hsb != 0 || decide (t.xext < k))

/-- The Hatch slots a stream command names. -/
def mmSlots (c : BitVec 128) : List Nat :=
  if opcodeOf c = 6 || opcodeOf c = 7 then [field c 43 2, field c 45 2] else [field c 43 2]

/-- The conditions of R238 that a stream command meets in its first entry gc, in the order of its table. [DEDUCED: log 80.] -/
def mmEntryErr (rm : Room) (tabs : Tables) (c : BitVec 128) (desc : BitVec 256) (cls : OpClass) :
    Option (Nat × List (BitVec 64)) :=
  let idx := field c 32 11
  let t := tensorOf desc
  let op := opcodeOf c
  let f := fmtOf tabs.ptab t.fmt
  let bits := (f.map (·.elem.bits)).getD 8
  let q := c.extractLsb' 52 4
  let after := rm.mx.swap q
  let recs (qs : List Nat) := qs.map fun i =>
    let b := after.act.toList.getD i MxBuf.reset
    (b.fmt, b.smode, b.sq)
  let tile := [rm.mx.tileWord]
  firstErr [
    fmtErr tabs t.fmt t.smode 0 true,
    if mmFieldBad c t then some (fcMmField, cmdWords c) else none,
    ((mmLines op (field c 56 7 + 1) cls bits t).find? fun l =>
      decide (l.2.1.length > 1) || decide (l.2.2.length > 1)).map fun l =>
        (fcMmLayout, [BitVec.ofNat 64 idx, BitVec.ofNat 64 (mmFirstByte op (field c 56 7 + 1) cls bits t l.1)]),
    if rm.mx.swapRefused q || after.act.toList.any (fun b => b.st != 2#2) then some (fcMmNotReady, tile) else none,
    if (mmCombos op).all fun qs => (recs qs).all (· == (recs qs).headD (0, 0, false)) then none
    else some (fcMmFormat, tile),
    if op = 5 && (after.act[0].smode != 0#2) && !after.act[0].sq then some (fcMmAxis, tile) else none,
    ((mmSlots c).find? fun n => decide (2 ≤ rm.hatch.slot n)).map fun n =>
      (fcHatchOwner, [BitVec.ofNat 64 n, rm.hatch.st.zeroExtend 64])]

/-- The buffers as the stream commands and loads that have started will leave them, each swap refused where its stream
command will fault (R224 to R226, R844). [DEDUCED: log 80.] -/
def Room.planned (rm : Room) (tabs : Tables) : Mx :=
  let key (p : Pend) : Nat := 2 * p.due + (match p.eff with
    | .mmEntry .. => 0
    | _ => 1)
  (sortPend key rm.pend).foldl (fun (m : Mx) p => match p.eff with
    | .mmEntry id c =>
      let m := m.settle p.due
      match rm.run id with
      | some u =>
        let err := mmEntryErr { rm with mx := m, hatch := Hatch.reset } tabs c.word (u.descs.headD 0) u.cls
        if err.isNone then m.swap (c.word.extractLsb' 52 4) else m
      | none => m
    | .mxBegin bufs ready => (m.settle p.due).startLoad bufs ready
    | _ => m) rm.mx

/-- The stationary format that the quadrants will hold active in the first entry gc, when it is one and the same
(R844). [DEDUCED: log 80.] -/
def Room.statFmt (rm : Room) (tabs : Tables) (swapq : BitVec 4) : Option (BitVec 8) :=
  let planned := rm.planned tabs
  let rec4 := [0, 1, 2, 3].map fun i =>
    let b := if bit swapq i then planned.shd.toList.getD i MxBuf.reset else planned.act.toList.getD i MxBuf.reset
    if b.st = 0#2 then none else some (b.fmt, b.smode, b.sq)
  match rec4 with
  | some a :: t => if t.all (· == some a) then some a.1 else none
  | _ => none

/-- The timing of a stream command from its fields, as it stands in this gc. -/
def mmTime (rm : Room) (tabs : Tables) (c : BitVec 128) : MmTime :=
  let m := field c 56 7 + 1
  let d := rm.descOf (field c 32 11)
  let fmt := (tensorOf d).fmt
  let split := decide (opcodeOf c = 6) || decide (opcodeOf c = 7)
  let mk (cls : OpClass) (dd : Nat) : MmTime :=
    { cls := cls, d := dd, e := match cls with
        | .n16 => 4 * m
        | .s6 => if split then m else cdiv m 2
        | _ => m }
  match fmtOf tabs.ptab fmt, rm.statFmt tabs (c.extractLsb' 52 4) with
  | some f, some st =>
    match fmtOf tabs.ptab st.toNat with
    | some g => if f.cls = .none || field d 0 4 ≠ 1 then mk .n8 8 else mk (classMax f.cls g.cls) (decLat tabs fmt)
    | none => mk .n8 8
  | _, _ => mk .n8 8

/-- The stationary element and its scale at cell (r, c); none outside the loaded extent (R218, R222, R228). -/
def cellAt (act : List MxBuf) (r c : Nat) : Option (Val × Val) :=
  let b := act.getD (r / 64 * 2 + c / 64) MxBuf.reset
  let i := r % 64
  let j := c % 64
  let l := max (scaleLen b.smode.toNat) 1
  if i < b.rows && j < b.cols then
    some ((b.cells.getD i []).getD j (.fin false 0 0),
      if b.smode = 0#2 then .fin false 1 0
      else (b.scales.getD (i / l) []).getD (if b.sq then j / l else j) .nan)
  else none

/-- One product of a stream command (R227, R230): its first quadrant, the moving elements of its segment, the slot and
first slot column of its outputs, and for each output the stationary elements by reduced index. -/
structure MmProd where
  quad : Nat
  seg  : Nat
  slot : Nat
  col0 : Nat
  outs : List (List (Option (Val × Val)))
  deriving DecidableEq, Repr, Inhabited

/-- The products of a stream command on the active tile (R197, R209, R227, R230, R236). -/
def mmProds (act : List MxBuf) (c : BitVec 128) : List MmProd :=
  let k := field c 64 7 + 1
  let n := field c 72 7 + 1
  let hsa := field c 43 2
  let hsb := field c 45 2
  let col (r0 c0 : Nat) : List (List (Option (Val × Val))) :=
    (List.range n).map fun o => (List.range k).map fun j => cellAt act (r0 + j) (c0 + o)
  match opcodeOf c with
  | 5 => [{ quad := 0, seg := 0, slot := hsa, col0 := 0,
            outs := (List.range n).map fun o => (List.range k).map fun j => cellAt act o j }]
  | 6 => [{ quad := 0, seg := 0, slot := hsa, col0 := 0, outs := col 0 0 },
          { quad := 2, seg := 64, slot := hsb, col0 := 0, outs := col 64 0 }]
  | 7 => [{ quad := 0, seg := 0, slot := hsa, col0 := 0, outs := col 0 0 },
          { quad := 1, seg := 64, slot := hsa, col0 := 64, outs := col 0 64 },
          { quad := 2, seg := 128, slot := hsb, col0 := 0, outs := col 64 0 },
          { quad := 3, seg := 192, slot := hsb, col0 := 64, outs := col 64 64 }]
  | _ => [{ quad := 0, seg := 0, slot := hsa, col0 := 0, outs := col 0 0 }]

/-- The scale of one K-block of the moving row: that of its elements when they agree, else a free value. [DEDUCED: log 76.] -/
def movScale (free place : Nat) (scs : List Val) : Val :=
  match scs with
  | [] => .fin false 1 0
  | a :: t => if t.all (· == a) then a else ofF32 (Config.freeScale free place)

/-- R159 to R163: the block values of one output in ascending logical K. -/
def mmBlocks (l free place : Nat) : Nat → List (Val × Val) → List (Option (Val × Val)) → List (Val × BitVec 8)
  | 0, _, _ => []
  | n + 1, mov, sta =>
    let here := ((mov.take l).zip (sta.take l)).filterMap fun p => p.2.map fun q => (p.1, q)
    let rest := mmBlocks l free (place + 1) n (mov.drop l) (sta.drop l)
    match here with
    | [] => rest
    | h :: _ =>
      blockVal (here.map fun p => (p.1.1, p.2.1)) (movScale free place (here.map fun p => p.1.2)) h.2.2 :: rest

/-- R229: one result and its flags; with no participating product, +0 or the slot value. [DEDUCED: log 76.] -/
def mmResult (l free place : Nat) (acc : Option Val) (mov : List (Val × Val)) (sta : List (Option (Val × Val))) :
    Val × BitVec 8 :=
  chain acc (mmBlocks l free place (cdiv sta.length (max l 1)) mov sta)

/-- The value of a Hatch position as every write due by now leaves it (R231). -/
def Room.hatchNext (rm : Room) (slot row col : Nat) : BitVec 32 :=
  let hit := rm.pend.reverse.findSome? fun p => match p.eff with
    | .hatch sl rw c0 vs => if sl = slot && rw = row && decide (c0 ≤ col) && decide (col < c0 + vs.length)
        then vs[col - c0]? else none
    | _ => none
  hit.getD (sget rm.hatch.mem (slot * 16384 + row * 128 + col))

/-- The block length of a product (R159). -/
def blockLen (sm mm : Nat) : Nat := if sm = 2 || mm = 2 then 16 else 32

/-- The first entry gc of a stream command (R224, R227, R233, R238 to R240): checks, swap and slot claims; its rows enter
from now on. -/
def mmEntry (r : RoomId) (id : Nat) (s : State) : State :=
  let at0 := s.cyc r
  let s := s.modRoom r fun rm => { rm with mx := rm.mx.settle at0 }
  let rm := s.room r
  match rm.run id with
  | none => s
  | some u =>
    let w := u.cmd.word
    let desc := u.descs.headD 0
    match mmEntryErr rm s.tabs w desc u.cls with
    | some x => (s.mmFault r w x).modRoom r fun rm =>
        let rm := rm.endRun id
        { rm with pan := { rm.pan with uses := rm.pan.uses.filter fun v =>
            !(decide (v.word = w) && v.start == u.start && v.kind == 0 && decide (at0 ≤ v.cyc)) } }
    | none =>
      let op := opcodeOf w
      let relBit := bit w 48
      let slots := mmSlots w
      let hatch := slots.foldl (fun h n => h.setSlot n (if relBit then 2 else 1)) rm.hatch
      let hatch := if relBit then { hatch with rel := hatch.rel ++ slots.map fun n => (n, at0 + u.e + 17) } else hatch
      let mx := rm.mx.swap (w.extractLsb' 52 4)
      let m := min (field w 56 7 + 1) (tensorOf desc).yext
      s.setRoom r { rm with
        mx := { mx with entryGc := satAdd mx.entryGc u.e }
        hatch := hatch
        pend := rm.pend ++ (List.range m).map fun i =>
          { due := at0 + mmEntryAt op u.cls i, start := u.start, word := w, eff := .mmRow id i } }

/-- The entry gc of one moving row (R227, R230, R231, R242, R847): its products with the active tile, each result due 14
gc later. -/
def mmRow (r : RoomId) (id i : Nat) (s : State) : State :=
  let rm := s.room r
  let at0 := s.cyc r
  match rm.run id with
  | none => s
  | some u =>
    let w := u.cmd.word
    let t := tensorOf (u.descs.headD 0)
    let op := opcodeOf w
    let el := ((fmtOf s.tabs.ptab t.fmt).map (·.elem)).getD (.flt fp32)
    let parts := indexed (mmParts op u.cls t)
    let readAt (p : Nat) : Nat := u.start + mmReadAt op u.cls i p
    let codes := (parts.map fun p => u.rowCodes el.bits t p.2.1 p.2.2 i (readAt p.1)).flatten
    let pt := s.readPtab r w t.fmt el codes
    let s := pt.2
    let bad := pt.1 || parts.any fun p => u.rowBad el.bits t p.2.1 p.2.2 i (readAt p.1)
    let vs := if bad then codes.map (fun _ => Val.nan) else codes.map el.decode
    let mov := vs.zip ((parts.map fun p => u.rowScales t 0 p.2.1 p.2.2 i (readAt p.1)).flatten)
    let l (p : MmProd) : Nat := blockLen (rm.mx.act.toList.getD p.quad MxBuf.reset).smode.toNat t.smode
    let sr := field w 80 7 + i
    let res := (mmProds rm.mx.act.toList w).map fun p =>
      (p.slot, p.col0, (indexed p.outs).map fun o =>
        let acc := if bit w 47 then some (ofF32 (rm.hatchNext p.slot sr (p.col0 + o.1))) else none
        mmResult (l p) s.free (i * 8) acc (mov.drop p.seg) o.2)
    let fl := (res.map fun p => p.2.2.foldl (fun f o => f ||| o.2) 0#8).foldl (fun f g => f ||| g) 0#8
    let s := s.modRoom r fun rm => { (rm.setFmt fl (tagOf w)) with
      pend := rm.pend ++ res.map fun p =>
        { due := at0 + 14, start := u.start, word := w, eff := .hatch p.1 sr p.2.1 (p.2.2.map fun o => o.1.toF32) } }
    let s := if i + 1 = min (field w 56 7 + 1) t.yext then s.modRoom r (·.endRun id) else s
    s.tickFree

/-- A stream command that starts in this gc with a true predicate and no descriptor fault: its rows are read, and its
first entry gc is D later (R213, R240). -/
def mmRun (r : RoomId) (c : QCmd) (tm : MmTime) (s : State) : State :=
  let rm := s.room r
  let at0 := s.cyc r
  let w := c.word
  let desc := rm.descOf (field w 32 11)
  let t := tensorOf desc
  let op := opcodeOf w
  let acc := match fmtOf s.tabs.ptab t.fmt with
    | none => []
    | some f => ((mmLines op (min (field w 56 7 + 1) t.yext) tm.cls f.elem.bits t).map fun g =>
        (gcLines g.2.1 g.2.2).map fun n => (at0 + g.1, n)).flatten
  match rm.notReady (tagOf w) false (acc.filter (fun a => a.1 == at0)) with
  | some z => s.freeze r z
  | none =>
    let s := (s.begin r 3 c (tm.d + tm.e + (if bit w 48 then 17 else 14)) 0).modRoom r fun rm =>
      { rm with mx := rm.mx.takeStream at0 tm.e (at0 + tm.d + tm.e) }
    let x := s.addRun r { (default : Run) with cmd := c, start := at0, descs := [desc], cls := tm.cls, e := tm.e }
    (x.2.reads r w x.1 acc).addPend r (at0 + tm.d) w (.mmEntry x.1 c)

/-- MM128, MMT, MM64P and MM64Q (R205, R210 to R216). -/
def mmStream (op : Nat) (r : RoomId) (c : QCmd) (s : State) : State :=
  let rm := s.room r
  let at0 := s.cyc r
  let tm := mmTime rm s.tabs c.word
  if !(s.atHead r 3 c) || !(opcodeOf c.word == op) || !(rm.mx.streamReady at0 tm.d) then s
  else
    let idx := field c.word 32 11
    let dur := tm.d + tm.e + (if bit c.word 48 then 17 else 14)
    let started := (s.begin r 3 c dur 0).modRoom r fun rm =>
      { rm with mx := rm.mx.takeStream at0 tm.e (at0 + tm.d + tm.e) }
    let t := tensorOf (rm.descOf idx)
    let bits := ((fmtOf s.tabs.ptab t.fmt).map (·.elem.bits)).getD 8
    let m := min (field c.word 56 7 + 1) t.yext
    let parts := mmParts op tm.cls t
    if !c.pred then started.skipEcc r c.word [idx]
    else match firstErr [rm.descErr s.tabs idx 1 c.word,
        rangeErr idx ((List.range m).map fun y => parts.map fun p => rowRange bits t p.1 p.2 y).flatten,
        rangeErr idx ((List.range m).map fun y =>
          (parts.map fun p => (rowScaleOffs t 0 p.1 p.2 y).map fun o => (o, 1)).flatten).flatten] with
      | some e => started.descFault r c.word e
      | none => mmRun r c tm s

/-- A matrix command with a reserved OPCODE (R845): MM_FIELD, on the stream lane with OCC 1, DUR 1 and D 0. -/
def mmReserved (r : RoomId) (c : QCmd) (s : State) : State :=
  let at0 := s.cyc r
  if !(s.atHead r 3 c) || [1, 2, 4, 5, 6, 7].contains (opcodeOf c.word) || !((s.room r).mx.streamReady at0 0) then s
  else
    let s := (s.begin r 3 c 1 0).modRoom r fun rm => { rm with mx := rm.mx.takeStream at0 1 (at0 + 1) }
    if c.pred then s.mmFault r c.word (fcMmField, cmdWords c.word) else s

/-! ## The commands -/

/-- MLOAD. -/
def execMload (r : RoomId) (c : QCmd) (s : State) : Host.Outcome State Fault Refusal := s.done (mload r c s)

/-- MLOAD_TILE_READY. -/
def execMloadTileReady (r : RoomId) (s : State) : Host.Outcome State Fault Refusal := s.done (mloadTileReady r s)

/-- MSWAP. -/
def execMswap (r : RoomId) (c : QCmd) (s : State) : Host.Outcome State Fault Refusal := s.done (mswap r c s)

/-- MM128, and the matrix commands with a reserved OPCODE (R845). -/
def execMm128 (r : RoomId) (c : QCmd) (s : State) : Host.Outcome State Fault Refusal :=
  s.done (if opcodeOf c.word = 4 then mmStream 4 r c s else mmReserved r c s)

/-- MMT (R236, R237). -/
def execMmt (r : RoomId) (c : QCmd) (s : State) : Host.Outcome State Fault Refusal := s.done (mmStream 5 r c s)

/-- MM64P. -/
def execMm64p (r : RoomId) (c : QCmd) (s : State) : Host.Outcome State Fault Refusal := s.done (mmStream 6 r c s)

/-- MM64Q. -/
def execMm64q (r : RoomId) (c : QCmd) (s : State) : Host.Outcome State Fault Refusal := s.done (mmStream 7 r c s)

/-- A RELEASING slot becomes VECTOR 4 gc after its last result is written (R233). -/
def hatchSlotToVector (r : RoomId) (slot : Fin 4) (s : State) : State :=
  let due := (s.room r).hatch.rel.any fun p => p.1 == slot.val && decide (p.2 ≤ s.cyc r)
  if due && (s.room r).hatch.slot slot.val == 2 then
    s.modRoom r fun rm => { rm with hatch := { rm.hatch.setSlot slot.val 3 with
      rel := rm.hatch.rel.filter (fun p => p.1 != slot.val) } }
  else s

/-- HATCH_SLOT_TO_VECTOR. -/
def execHatchSlotToVector (r : RoomId) (slot : Fin 4) (s : State) : Host.Outcome State Fault Refusal :=
  s.done (hatchSlotToVector r slot s)

end Sys2Proof.Machine
end

