-- ==== Sys2Proof/Machine/Sequencer.lean ====
section
/-! DEFINITION. The sequencer (chapter 07): bundle issue, hardware loops and the sequencer commands. -/

namespace Sys2Proof.Machine

/-! ## Faults -/

/-- SEQ_FIELD of a command (R359): the bundle offset and the command. [DEDUCED: log 73.] -/
def State.seqField (s : State) (r : RoomId) (c : BitVec 128) : State :=
  let off := (s.room r).seq.offNow
  (s.modRoom r fun rm => { rm with seq := { rm.seq with seqFault := satAdd rm.seq.seqFault 1 } }).cmdFault r c fcSeqField
    (BitVec.ofNat 64 off :: cmdWords c)

/-- SEQ_STRUCT (R359): the Room issues no further bundle until the binary is unloaded. -/
def State.seqStruct (s : State) (r : RoomId) (c : BitVec 128) (off : Nat) : State :=
  let sg := (s.room r).seq.segment
  (s.modRoom r fun rm => { rm with seq := { rm.seq with
    seqFault := satAdd rm.seq.seqFault 1, structStop := true, issuing := false, loops := [] } }).cmdFault r c
      fcSeqStruct [BitVec.ofNat 64 off, sg.zeroExtend 64]

/-! ## Bundles (R307 to R310) -/

/-- A bundle as fetched: DELTA, reserved header bits, commands and length in bytes. -/
structure Bundle where
  delta : Nat
  bad   : Bool
  cmds  : List (BitVec 128)
  len   : Nat
  deriving DecidableEq, Repr, Inhabited

/-- The bundle at an offset of the bundle store. -/
def Prog.bundleAt (p : Prog) (off : Nat) : Bundle :=
  let h := leNat (sgetRange p.bundle off 8)
  let n := nbits h 16 2 + 1
  { delta := nbits h 0 16, bad := nbits h 18 46 != 0, len := 8 + 16 * n,
    cmds := (List.range n).map fun i => BitVec.ofNat 128 (leNat (sgetRange p.bundle (off + 8 + 16 * i) 16)) }

/-- Would a fetch at this offset leave the segment, or meet a double-bit error (R359)? [DEDUCED: log 73.] -/
def Seq.fetchBad (q : Seq) (p : Prog) (b : Bundle) : Bool :=
  decide (q.bptr + b.len > p.bundleLen) ||
    (!q.fresh && p.segs.any fun g => g.off == q.bptr) ||
    (List.range (b.len / 8)).any fun i => sget p.bundleDue (q.bptr / 8 + i) == 1#1

/-- Is a sequencer OPCODE defined (R323)? -/
def seqOpOk (op : Nat) : Bool := decide (op ≤ 9) || decide (0x0C ≤ op && op ≤ 0x0E) || op == 0x10 || op == 0x11

/-- The value of a predicate in an issue gc (R313, R314). -/
def predOf (pb : BitVec 8) (c : BitVec 128) : Bool := (bit pb (field c 12 3) || field c 12 3 == 0) != bit c 15

/-- The first queue without room for the commands a bundle places there (R319). -/
def queueFull (qd : Vector Nat 7) (cs : List (BitVec 128)) : Option Nat :=
  [1, 2, 3, 4, 5, 6].find? fun u =>
    let n := (cs.filter (fun c => unitOf c == u)).length
    n != 0 && decide (qd.toList.getD u 0 + n > 8)

/-- In debug mode, a command predicated on the PD of a watch line not yet found FULL (R537, R769). -/
def State.smokeGuard (s : State) (r : RoomId) (c : BitVec 128) : State :=
  match (s.room r).latch.guards.find? (fun g => g.1 == field c 12 3 && g.1 != 0) with
  | some g => s.smokeRep (some r) 8 (tagOf c) g.2.2 (pack [(0, 3, g.1), (12, 12, g.2.1)])
  | none => s

/-- A reserved UNIT, or a reserved OPCODE of the sequencer (R323, R359). -/
def seqReserved (c : BitVec 128) : Bool := decide (7 ≤ unitOf c) || (unitOf c == 0 && !seqOpOk (opcodeOf c))

/-- Is the command a LOOP or a TEND, which executes as though its PRED were 0x0 (R328)? -/
def seqAlways (c : BitVec 128) : Bool := unitOf c == 0 && (opcodeOf c == 0x10 || opcodeOf c == 0x11)

/-- One command of a bundle in its issue gc (R310): into its unit's queue, or to the sequencer, which also takes what
executes as SNOP (R359). [DEDUCED: log 34; DEDUCED: log 73.] -/
def placeCmd (r : RoomId) (last : Bool) (c : BitVec 128) (s : State) : State :=
  let rm := s.room r
  let u := unitOf c
  let q : QCmd := { word := c, pred := seqAlways c || predOf rm.seq.pbVis c }
  let s := s.smokeGuard r c
  if u = 0 || decide (7 ≤ u) then
    (s.modRoom r fun rm => { rm with seq := { rm.seq with now := rm.seq.now ++ [{ cmd := q, last := last }] } }).traceEv
      r 0 u true (opcodeOf c) (tagOf c) (!q.pred) 0 0
  else
    let s := s.modRoom r fun rm => rm.setQueue u (rm.queue u ++ [q])
    s.traceEv r 0 u true (opcodeOf c) (tagOf c) (!q.pred) 0 ((s.room r).queue u).length

/-- A counter of the sequencer. -/
def Seq.get (q : Seq) (n : Nat) : BitVec 64 := q.sc.toList.getD n 0

def Seq.set (q : Seq) (n : Nat) (v : BitVec 64) : Seq := if h : n < 16 then { q with sc := q.sc.set n v } else q

/-- The end of an iteration (R326), after the sequencer commands of bundle `cur`: the increment, and the body again, or
the enclosing loops. The tags and trace details of the loop-backs come with it. -/
def Seq.loopEnd (q : Seq) (cur : Nat) : List LoopFrame → Seq × List (BitVec 16 × Nat)
  | [] => ({ q with loops := [] }, [])
  | f :: t =>
    if f.last ≠ cur then ({ q with loops := f :: t }, [])
    else
      let q := if f.incen then q.set f.incsc (q.get f.incsc + f.incv.signExtend 64) else q
      if f.left = 0 then q.loopEnd cur t
      else ({ q with loops := { f with left := f.left - 1 } :: t, bptr := f.ptr, bidx := f.first }, [(f.tag, f.left)])

/-- What follows the last sequencer command of a bundle. -/
def afterBundle (r : RoomId) (s : State) : State :=
  let q := (s.room r).seq
  if !q.now.isEmpty || !q.issuing || q.loops.isEmpty then s
  else
    let x := q.loopEnd (q.bidx - 1) q.loops
    let s := s.modRoom r fun rm => { rm with seq := x.1 }
    x.2.foldl (fun s n => s.traceEv r 7 0 true 0x10 n.1 false 0 n.2) s

/-- BUNDLE_ISSUE. [DEDUCED: log 73.] -/
def bundleIssue (r : RoomId) (s : State) : State :=
  let rm := s.room r
  let q := rm.seq
  let w := wingOf r
  let at0 := s.cyc r
  if !(rm.on && s.advancing w && q.issuing && q.now.isEmpty) then s
  else
    let b := rm.prog.bundleAt q.bptr
    let c0 := b.cmds.headD 0
    let delta := if q.fresh then 0 else if q.fetchBad rm.prog b then 1 else max b.delta 1
    if at0 < q.lastIssue + delta then s
    else if q.fetchBad rm.prog b then s.seqStruct r 0 q.bptr
    else match queueFull q.qdVis b.cmds with
      | some u => (s.smokeRep (some r) 7 (tagOf c0) 0 u).freeze r (.queue (tagOf c0) u)
      | none =>
        let s := s.setRoom r { rm with seq := { q with
          offNow := q.bptr, bptr := q.bptr + b.len, bidx := q.bidx + 1, fresh := false, lastIssue := at0,
          doneTag := if q.doneAt < at0 + 1 then tagOf (b.cmds.getLastD 0) else q.doneTag,
          doneAt := max q.doneAt (at0 + 1) } }
        let wrong := b.bad || (if q.fresh then b.delta != 0 else b.delta == 0)
        let s := if wrong then s.seqField r c0 else s
        let s := (indexed b.cmds).foldl (fun s p => placeCmd r (p.1 + 1 == b.cmds.length) p.2 s) s
        afterBundle r s

/-! ## Sequencer commands (R322 to R330) -/

/-- Operand B of layout S. -/
def seqB (q : Seq) (c : BitVec 128) : BitVec 64 := if bit c 44 then c.extractLsb' 64 64 else q.get (field c 40 4)

/-- A condition of SCMP (R322). -/
def seqCond (k : Nat) (a b : BitVec 64) : Bool :=
  match k with
  | 0 => a == b
  | 1 => a != b
  | 2 => a.slt b
  | 3 => !(b.slt a)
  | 4 => b.slt a
  | 5 => !(a.slt b)
  | 6 => a.ult b
  | _ => !(a.ult b)

/-- A predicate bit is written; PB0 ignores writes (R320). -/
def Seq.setPb (q : Seq) (n : Nat) (v : Bool) : Seq :=
  if n = 0 then q else { q with pb := setField q.pb n 1 (b2n v) }

/-- SEQ_FIELD conditions of the fields of a sequencer command (R359). -/
def seqBad (op : Nat) (c : BitVec 128) : Bool :=
  bit c 51 || field c 58 6 != 0 || (op == 8 && field c 48 3 == 0) ||
    (op == 0x0E && decide (field c 75 8 + field c 83 6 + 1 > 256)) ||
    (op == 0x10 && (field c 80 8 == 0 || field c 93 3 != 0 || field c 112 16 != 0)) ||
    (op == 0x11 && field c 96 32 != 0)

/-- A sequencer command at the head of its bundle executes (R310, R324): its faults, its effect, its trace. [DEDUCED: log 34.] -/
def seqCmd (op : Nat) (r : RoomId) (c : QCmd) (always : Bool) (eff : Bool → State → State) (s : State) : State :=
  let rm := s.room r
  match rm.seq.now with
  | [] => s
  | h :: t =>
    if !(rm.on && s.advancing (wingOf r)) || decide (h.cmd ≠ c) || !(opcodeOf c.word == op) then s
    else
      let w := c.word
      let s := s.setRoom r { rm with seq := { rm.seq with now := t } }
      let s := s.traceEv r 1 0 true op (tagOf w) (!c.pred) 0 0
      let s := if bit rm.trace.ctl 0 then s.addPend r (s.cyc r + 1) w (.complete 0 op (!c.pred)) else s
      let s := if always && field w 12 4 != 0 then s.seqField r w else s
      let s := if !c.pred && !always then s
        else if seqBad op w then s.seqField r w
        else eff h.last s
      afterBundle r s

/-- A command whose effect is on the sequencer alone. -/
def seqPure (op : Nat) (r : RoomId) (c : QCmd) (f : Seq → Seq) (s : State) : State :=
  seqCmd op r c false (fun _ s => s.modRoom r fun rm => { rm with seq := f rm.seq }) s

/-- A command SC[SD] = f(SC[SA], B). -/
def seqAlu (op : Nat) (r : RoomId) (c : QCmd) (f : BitVec 64 → BitVec 64 → BitVec 64) (s : State) : State :=
  let w := c.word
  seqPure op r c (fun q => q.set (field w 32 4) (f (q.get (field w 36 4)) (seqB q w))) s


/-- A reserved UNIT or sequencer OPCODE executes as SNOP, with SEQ_FIELD under a true predicate (R315, R359). [DEDUCED: log 73.] -/
def seqUndefined (r : RoomId) (c : QCmd) (s : State) : State :=
  let rm := s.room r
  match rm.seq.now with
  | [] => s
  | h :: t =>
    if !(rm.on && s.advancing (wingOf r)) || decide (h.cmd ≠ c) then s
    else
      let w := c.word
      let s := s.setRoom r { rm with seq := { rm.seq with now := t } }
      let s := s.traceEv r 1 (unitOf w) true (opcodeOf w) (tagOf w) (!c.pred) 0 0
      let s := if bit rm.trace.ctl 0 then
          s.addPend r (s.cyc r + 1) w (.complete (unitOf w) (opcodeOf w) (!c.pred))
        else s
      afterBundle r (if c.pred then s.seqField r w else s)

/-- SNOP, and what executes as SNOP (R359). -/
def snop (r : RoomId) (c : QCmd) (s : State) : State :=
  if seqReserved c.word then seqUndefined r c s else seqPure 0 r c id s
def sset (r : RoomId) (c : QCmd) (s : State) : State :=
  seqPure 1 r c (fun q => q.set (field c.word 32 4) (c.word.extractLsb' 64 64)) s
def sadd (r : RoomId) (c : QCmd) (s : State) : State := seqAlu 2 r c (fun a b => a + b) s
def ssub (r : RoomId) (c : QCmd) (s : State) : State := seqAlu 3 r c (fun a b => a - b) s
def smul (r : RoomId) (c : QCmd) (s : State) : State := seqAlu 4 r c (fun a b => a * b) s
def sand (r : RoomId) (c : QCmd) (s : State) : State := seqAlu 5 r c (fun a b => a &&& b) s
def sor (r : RoomId) (c : QCmd) (s : State) : State := seqAlu 6 r c (fun a b => a ||| b) s
def sshr (r : RoomId) (c : QCmd) (s : State) : State := seqAlu 7 r c (fun a b => a >>> field b 0 6) s

def scmp (r : RoomId) (c : QCmd) (s : State) : State :=
  let w := c.word
  seqPure 8 r c (fun q => q.setPb (field w 48 3) (seqCond (field w 45 3) (q.get (field w 36 4)) (seqB q w))) s

def pset (r : RoomId) (c : QCmd) (s : State) : State :=
  let w := c.word
  seqPure 9 r c (fun q => [1, 2, 3, 4, 5, 6, 7].foldl
    (fun q n => if bit w (64 + n) then q.setPb n (bit w (72 + n)) else q) q) s

/-- QDEPTH: the depth at the start of the issue gc; 0 for the sequencer and reserved units. -/
def qdepth (r : RoomId) (c : QCmd) (s : State) : State :=
  let w := c.word
  seqPure 0x0C r c (fun q =>
    let u := field w 64 4
    q.set (field w 32 4) (if u = 0 || decide (u > 6) then 0 else BitVec.ofNat 64 (q.qdVis.toList.getD u 0))) s

/-- SVGET: a lane as readable in the issue gc, sign-extended. -/
def svget (r : RoomId) (c : QCmd) (s : State) : State :=
  let w := c.word
  seqCmd 0x0D r c false (fun _ s => s.modRoom r fun rm =>
    { rm with seq := rm.seq.set (field w 32 4) ((sget rm.vec.regs (256 * field w 52 6 + field w 64 8)).signExtend 64) }) s

/-- DSET (R330): units see the entry changed from the next gc. -/
def dset (r : RoomId) (c : QCmd) (s : State) : State :=
  let w := c.word
  seqCmd 0x0E r c false (fun _ s => s.modRoom r fun rm =>
    let d : DsetWr :=
      { entry := field w 64 11, lsb := field w 75 8, width := field w 83 6 + 1, val := (rm.seq.get (field w 36 4)).toNat }
    { rm with prog := { rm.prog with dsets := rm.prog.dsets ++ [d] } }) s

/-- A DSET reaches its entry: the field, and no error in the words written whole (R330). -/
def Prog.applyDset (p : Prog) (d : DsetWr) : Prog :=
  let whole (i : Nat) : Bool := decide (d.lsb ≤ 64 * i) && decide (64 * i + 64 ≤ d.lsb + d.width)
  { p with
    desc := sput p.desc d.entry (setField (sget p.desc d.entry) d.lsb d.width d.val)
    descDue := [0, 1, 2, 3].foldl (fun m i => if whole i then sput m (4 * d.entry + i) 0#1 else m) p.descDue }

/-- LOOP (R326 to R328). -/
def loop (r : RoomId) (c : QCmd) (s : State) : State :=
  let w := c.word
  seqCmd 0x10 r c true (fun _ s =>
    let q := (s.room r).seq
    let cur := q.bidx - 1
    let nbun := field w 80 8
    let outside := match q.loops with
      | f :: _ => decide (cur + nbun > f.last)
      | [] => false
    if q.loops.length ≥ 4 || outside then s.seqStruct r w q.offNow
    else s.modRoom r fun rm => { rm with seq := { rm.seq with
      loops := { tag := tagOf w, first := cur + 1, last := cur + nbun, left := field w 64 16, ptr := rm.seq.bptr,
                 incsc := field w 88 4, incen := bit w 92, incv := w.extractLsb' 96 16 } :: rm.seq.loops } }) s

/-- TEND (R327 to R329, R306). [DEDUCED: log 72.] -/
def tend (r : RoomId) (c : QCmd) (s : State) : State :=
  let w := c.word
  seqCmd 0x11 r c true (fun last s =>
    let rm := s.room r
    let q := rm.seq
    let nt := field w 64 16
    let nf := field w 80 16
    let beyond (n : Nat) : Bool := n != 0xFFFF && decide (n ≥ rm.prog.segs.length)
    if !last || !q.loops.isEmpty || beyond nt || beyond nf then s.seqStruct r w q.offNow
    else
      let sel := if bit q.pb (field w 48 3) then nt else nf
      let s := s.setRoom r { rm with seq := { q with
        next := BitVec.ofNat 16 sel, issuing := false, ended := q.ended || sel == 0xFFFF } }
      s.traceEv r 6 0 true 0x11 (tagOf w) false 0 sel) s

/-! ## The commands -/

def execBundleIssue (r : RoomId) (s : State) : Host.Outcome State Fault Refusal := s.done (bundleIssue r s)
def execSnop (r : RoomId) (c : QCmd) (s : State) : Host.Outcome State Fault Refusal := s.done (snop r c s)
def execSset (r : RoomId) (c : QCmd) (s : State) : Host.Outcome State Fault Refusal := s.done (sset r c s)
def execSadd (r : RoomId) (c : QCmd) (s : State) : Host.Outcome State Fault Refusal := s.done (sadd r c s)
def execSsub (r : RoomId) (c : QCmd) (s : State) : Host.Outcome State Fault Refusal := s.done (ssub r c s)
def execSmul (r : RoomId) (c : QCmd) (s : State) : Host.Outcome State Fault Refusal := s.done (smul r c s)
def execSand (r : RoomId) (c : QCmd) (s : State) : Host.Outcome State Fault Refusal := s.done (sand r c s)
def execSor (r : RoomId) (c : QCmd) (s : State) : Host.Outcome State Fault Refusal := s.done (sor r c s)
def execSshr (r : RoomId) (c : QCmd) (s : State) : Host.Outcome State Fault Refusal := s.done (sshr r c s)
def execScmp (r : RoomId) (c : QCmd) (s : State) : Host.Outcome State Fault Refusal := s.done (scmp r c s)
def execPset (r : RoomId) (c : QCmd) (s : State) : Host.Outcome State Fault Refusal := s.done (pset r c s)
def execQdepth (r : RoomId) (c : QCmd) (s : State) : Host.Outcome State Fault Refusal := s.done (qdepth r c s)
def execSvget (r : RoomId) (c : QCmd) (s : State) : Host.Outcome State Fault Refusal := s.done (svget r c s)
def execDset (r : RoomId) (c : QCmd) (s : State) : Host.Outcome State Fault Refusal := s.done (dset r c s)
def execLoop (r : RoomId) (c : QCmd) (s : State) : Host.Outcome State Fault Refusal := s.done (loop r c s)
def execTend (r : RoomId) (c : QCmd) (s : State) : Host.Outcome State Fault Refusal := s.done (tend r c s)

end Sys2Proof.Machine
end

