-- ==== Sys2Proof/Machine/Registers.lean ====
section
/-! DEFINITION. The management space as it reads (R780, R781, R813): every register and window of every block. -/

namespace Sys2Proof.Machine

/-- A block of the management space (R780). -/
inductive Block
  | threshold
  | palbo
  | porch (p : PorchId)
  | cellar (c : CellarId)
  | newel (w : WingId)
  | room (r : RoomId)
  deriving DecidableEq, Repr, Inhabited

/-- The block and the offset of a device address (R780). -/
def blockOf (addr : Nat) : Option (Block × Nat) :=
  if addr < 0x020000000000 || addr ≥ 0x020007000000 then none
  else
    let n := (addr - 0x020000000000) / 0x100000
    let off := addr % 0x100000
    if n = 0 then some (.threshold, off)
    else if n = 1 then some (.palbo, off)
    else if n < 4 then some (.porch (Fin.ofNat 2 (n - 2)), off)
    else if n < 8 then some (.cellar (Fin.ofNat 4 (n - 4)), off)
    else if n < 12 then some (.newel (Fin.ofNat 4 (n - 8)), off)
    else if 16 ≤ n && n < 112 then some (.room (Fin.ofNat 96 (n - 16)), off)
    else none

/-- The `n` words of a register with these fields (R781). -/
def wordsOf (n : Nat) (fs : List (Nat × Nat × Nat)) : List (BitVec 64) :=
  let v := pack fs
  (List.range n).map fun i => BitVec.ofNat 64 (nbits v (64 * i) 64)

def splitWords (n v : Nat) : List (BitVec 64) := (List.range n).map fun i => BitVec.ofNat 64 (nbits v (64 * i) 64)

/-! ## Threshold -/

def State.jobStatus (s : State) : List (BitVec 64) :=
  wordsOf 2 [(0, 4, s.job.js.code), (4, 3, s.job.smode.toNat), (7, 1, b2n s.job.rt), (8, 1, b2n s.job.frozen),
    (9, 2, s.job.pend.toNat), (64, 64, s.job.pendStick.toNat)]

def State.tickCfg (s : State) : List (BitVec 64) :=
  wordsOf 1 [(0, 20, s.tickRc), (24, 1, b2n s.job.rt), (32, 5, (s.wing 0).m), (40, 5, (s.wing 1).m), (48, 5, (s.wing 2).m),
    (56, 5, (s.wing 3).m)]

/-- The latency profile of the device (R71). -/
def State.profile (s : State) : Nat := if s.thr.pwr.stepB0 then 2 else 1

def State.tickStatus (s : State) : List (BitVec 64) :=
  wordsOf 1 [(0, 1, b2n s.job.miss), (1, 1, b2n s.job.overrun), (4, 4, s.profile), (8, 4, s.job.runProfile.toNat),
    (16, 16, s.job.missCount.toNat), (32, 32, s.job.slipMax.toNat)]

/-- Ranks with OOS set (R648). -/
def Porch.oosPeers (x : Porch) : Nat := (x.entries.filter fun e => bit e.2 41).length

def State.alignStatus (s : State) : List (BitVec 64) :=
  let k := s.thr.clk
  wordsOf 1 [(0, 1, b2n k.aligned), (1, 1, b2n k.alignFail), (2, 1, b2n k.realigned), (8, 8, k.residual.toNat),
    (16, 13, (s.porch 0).oosPeers), (32, 32, k.checks.toNat)]

def State.refStatus (s : State) : List (BitVec 64) :=
  let k := s.thr.clk
  wordsOf 1 [(0, 1, b2n k.refOk), (1, 1, b2n k.refLoss), (2, 1, b2n k.outOfStep), (3, 1, b2n k.expired),
    (8, 24, k.holdRc.toNat), (32, 32, k.losses.toNat)]

/-- [DEDUCED: log 21.] -/
def State.pwrStatus (s : State) : List (BitVec 64) :=
  let p := s.thr.pwr
  wordsOf 1 [(0, 4, p.cellar.toNat), (4, 2, p.porch.toNat), (6, 1, b2n p.palbo), (8, 4, p.spine.toNat),
    (16, 4, p.rg.toNat)]

def State.bootStatus (s : State) : List (BitVec 64) :=
  let b := s.thr.boot
  wordsOf 2 [(0, 1, b2n b.src), (1, 1, b2n b.valid), (2, 1, b2n b.idOk), (3, 1, b2n b.helperSrc),
    (4, 1, b2n s.debugAllow), (8, 16, b.reasonA.toNat), (24, 16, b.reasonB.toNat), (64, 64, b.img.version.toNat)]

def State.loadStatus (s : State) : List (BitVec 64) :=
  splitWords 4 (setField s.thr.load.status 7 1 (b2n s.thr.load.fail)).toNat

def State.gbStatus (s : State) : List (BitVec 64) :=
  let g := s.thr.guest
  wordsOf 4 [(0, 48, g.count.toNat), (64, 48, g.readMark.toNat), (128, 1, b2n g.overwrite), (129, 1, b2n g.faultDrop),
    (136, 9, min g.queue.length 256), (160, 32, g.unreadLost.toNat), (192, 32, g.dropped.toNat)]

def State.faultStatus (s : State) : List (BitVec 64) :=
  let f := s.flt
  wordsOf 4 [(0, 48, f.count.toNat), (48, 16, f.lastCode.toNat), (64, 48, f.readMark.toNat), (112, 1, b2n f.overwrite),
    (113, 1, b2n f.drop), (114, 1, b2n f.held), (128, 32, f.dropped.toNat), (160, 32, f.unreadLost.toNat)]

def State.debugCtl (s : State) : List (BitVec 64) :=
  let k := s.smoke
  wordsOf 2 [(0, 1, b2n k.debug), (1, 1, b2n k.drop), (8, 8, k.checkEn.toNat), (32, 32, k.count.toNat),
    (64, 32, k.lost.toNat)]

def State.mirrorCtl (s : State) : List (BitVec 64) :=
  let m := s.mir
  wordsOf 3 [(0, 1, b2n m.enable), (1, 5, m.port.val), (6, 1, b2n (m.enable && s.mirrorPort.live)), (7, 1, b2n m.mismatch),
    (8, 1, b2n m.stopLate), (9, 1, b2n m.lag), (16, 14, m.own.length), (32, 32, m.matched.toNat), (64, 64, m.stopTick.toNat),
    (128, 32, m.dropped.toNat)]

def State.stwStatus (s : State) : List (BitVec 64) :=
  let w := s.thr.stw
  wordsOf 2 [(0, 8, w.lastSop.toNat), (8, 1, b2n w.late), (9, 1, b2n w.discard), (16, 16, w.lastSeq.toNat),
    (32, 13, w.acks.toNat), (48, 13, w.naks.toNat), (64, 32, w.sent.toNat), (96, 32, w.received.toNat)]

/-- A record of a window: the record that holds an offset, and its words. -/
def windowRec (off base len : Nat) (n : Nat) (rcd : Nat → Nat) : Option (Nat × List (BitVec 64)) :=
  if off < base || off ≥ base + len * n then none
  else
    let i := (off - base) / len
    some (base + len * i, splitWords (len / 8) (rcd i))

/-- The register or record of the Threshold that holds an offset: where it begins, and its words. -/
def State.thrReg (s : State) (off : Nat) : Option (Nat × List (BitVec 64)) :=
  let base := off / 0x40 * 0x40
  let one (l : List (BitVec 64)) : Option (Nat × List (BitVec 64)) := some (base, l)
  if off ≥ 0x8000 then
    ((windowRec off 0x8000 32 1024 fun i => (sget s.thr.load.log i).toNat).orElse fun _ =>
      windowRec off 0x10000 32 2048 fun i => (sget s.smoke.log i).toNat).orElse fun _ =>
      (windowRec off 0x20000 128 1024 fun i => (sget s.flt.log i).toNat).orElse fun _ =>
      windowRec off 0x40000 64 4096 fun i => (sget s.thr.guest.recs i).toNat
  else match base with
  | 0x000 => one s.jobStatus
  | 0x040 => one [s.job.tick]
  | 0x080 => one [s.job.stick]
  | 0x0C0 => one s.tickCfg
  | 0x100 => one s.tickStatus
  | 0x140 => one [s.thr.clk.jclk]
  | 0x180 => one s.alignStatus
  | 0x1C0 => one s.refStatus
  | 0x200 => one s.pwrStatus
  | 0x240 => one s.bootStatus
  | 0x280 => one (splitWords 8 s.thr.boot.img.hash.toNat)
  | 0x2C0 => one (splitWords 8 s.thr.boot.img.owner.toNat)
  | 0x300 => one s.loadStatus
  | 0x340 => one s.gbStatus
  | 0x380 => one (splitWords 8 s.thr.guest.head.toNat)
  | 0x3C0 => one (splitWords 8 s.thr.guest.anchor.toNat)
  | 0x400 => one [s.thr.guest.oldest.zeroExtend 64]
  | 0x440 => one s.faultStatus
  | 0x480 => one s.debugCtl
  | 0x4C0 => one s.mirrorCtl
  | 0x500 => one [s.thr.stw.cmd.zeroExtend 64]
  | 0x540 => one s.stwStatus
  | 0xFC0 => one [s.thr.w1c]
  | _ => none

/-! ## Palbo and the Porches -/

def State.linkStatus (s : State) : List (BitVec 64) :=
  let p := s.pal
  wordsOf 1 [(0, 1, b2n p.live), (1, 1, b2n p.retraining), (2, 1, b2n p.fenced), (3, 1, b2n p.viol), (4, 1, b2n p.access),
    (8, 8, p.lastCode.toNat), (16, 8, p.retrains.toNat), (24, 8, p.violSince.toNat), (32, 32, p.replays.toNat)]

def State.palReg (s : State) (base : Nat) : Option (List (BitVec 64)) :=
  let p := s.pal
  match base with
  | 0x00 => some (splitWords 2 p.cfg.toNat)
  | 0x40 => some s.linkStatus
  | 0x80 => some (wordsOf 3 [(0, 32, p.cards.toNat), (32, 16, p.rejected.toNat), (48, 16, p.rereads.toNat),
      (64, 32, p.refused.toNat), (96, 32, p.doorplates.toNat), (128, 32, p.replaced.toNat), (160, 32, p.dropped.toNat)])
  | 0xFC0 => some [p.w1c]
  | _ => none

/-- PORCH_PORT_STATUS (R645). -/
def Port.status (q : Port) : BitVec 64 :=
  BitVec.ofNat 64 (pack [(0, 1, b2n q.enable), (1, 1, b2n q.live), (2, 1, b2n q.fenced), (3, 1, b2n q.retraining),
    (4, 2, q.dim.toNat), (6, 1, b2n q.dir), (8, 16, q.delay.toNat), (24, 8, q.retrains.toNat), (32, 32, q.replays.toNat)])

/-- PORCH_RANK_ENTRY (R644). -/
def Porch.rankEntry (x : Porch) : BitVec 64 :=
  setField (x.entry x.entryIdx.toNat) 0 16 x.entryIdx.toNat

def Porch.ctxEntry (x : Porch) : BitVec 128 := (x.coll.toList.getD x.collSel.toNat default).entry

def State.porchReg (s : State) (p : PorchId) (base : Nat) : Option (List (BitVec 64)) :=
  let x := s.porch p
  match base with
  | 0x00 => some (splitWords 2 x.cfg.toNat)
  | 0x40 => some [x.rankEntry]
  | 0x80 => some (splitWords 2 x.ctxEntry.toNat ++ [x.collSel.zeroExtend 64])
  | 0xC0 => some (wordsOf 5 [(0, 64, x.injected.toNat), (64, 64, x.ejected.toNat), (128, 64, x.deflected.toNat),
      (192, 64, x.bsEntries.toNat), (256, 32, x.returned.toNat), (288, 16, x.unreach.toNat), (304, 8, x.holdMax.toNat),
      (312, 8, x.refusals.toNat)])
  | 0xFC0 => some [s.fab.w1c.toList.getD p.val 0]
  | b => if 0x1000 ≤ b && b < 0x1400 then some [(x.port ((b - 0x1000) / 0x40)).status] else none

/-! ## Cellars and Newels -/

def Cellar.trainedBits (c : Cellar) : Nat := b2n c.stk[0].trained + 2 * b2n c.stk[1].trained

def Engine.depth (e : Engine) : Nat := e.queue.length + (if e.cur.isSome then 1 else 0)

def State.cellarReg (s : State) (n : CellarId) (base : Nat) : Option (List (BitVec 64)) :=
  let c := s.mem.cellars[n.val]
  match base with
  | 0x00 => some (wordsOf 1 [(0, 2, c.trainedBits), (4, 2, c.stk[0].level), (6, 2, c.stk[1].level),
      (16, 12, c.stk[0].temp.toNat), (32, 12, c.stk[1].temp.toNat), (48, 16, c.extraWin.toNat)])
  | 0x40 => some (wordsOf 2 [(0, 1, b2n c.corr), (1, 1, b2n c.due), (2, 1, b2n c.poisonRd), (8, 39, c.lastAddr.toNat),
      (48, 16, c.corrCount.toNat), (64, 16, c.dueCount.toNat), (80, 16, c.ondie.toNat)])
  | 0x80 => some (wordsOf 1 [(0, 8, c.hours.toNat), (8, 1, b2n c.behind),
      (16, 32, min c.stk[0].passes c.stk[1].passes)])
  | 0xC0 => some (wordsOf 1 [(0, 5, c.xpose.depth), (8, 5, c.gs.depth), (16, 32, c.opsDone.toNat)])
  | 0x100 => some (wordsOf 1 [(0, 8, c.mudBusy.toNat), (8, 1, b2n c.mudKey), (16, 32, c.mudUnits.toNat)])
  | 0xFC0 => some [c.w1c]
  | _ => none

/-- The physical Rooms of a Wing that are switched on, bit 2 × cc + r (R28 to R30, R126). -/
def State.roomsOn (s : State) (w : WingId) : Nat :=
  let g := s.wing w
  let cols := ((List.range 13).filter fun c => bit g.colGood c).take g.logCols.toNat
  let room (j r : Nat) : RoomId := roomIdOf (if j < 11 then 22 * w.val + 2 * j + r else 88 + 2 * w.val + r)
  (indexed cols).foldl (fun n x =>
    let b (r : Nat) : Nat := if (s.room (room x.1 r)).on then 2 ^ (2 * x.2 + r) else 0
    n + b 0 + b 1) 0

def State.newelReg (s : State) (w : WingId) (base : Nat) : Option (List (BitVec 64)) :=
  let g := s.wing w
  match base with
  | 0x00 => some (wordsOf 1 [(0, 13, g.colGood.toNat), (16, 4, g.logCols.toNat), (32, 26, g.roomPass.toNat)])
  | 0x40 => some (wordsOf 1 [(0, 26, s.roomsOn w)])
  | 0x80 => some (wordsOf 1 [(0, 5, g.m), (5, 1, b2n g.lock), (6, 1, b2n g.holdover), (8, 1, b2n g.strLimit),
      (9, 1, b2n g.relSlow), (16, 16, min g.strTick 0xFFFF), (32, 8, g.dutyT.toNat), (40, 8, g.dutyP.toNat),
      (48, 16, g.tempMax.toNat)])
  | 0xC0 => some (splitWords 4 g.slipLast.toNat)
  | 0x100 => some (splitWords 6 g.slipTot.toNat)
  | 0xFC0 => some [g.w1c]
  | _ => none

/-! ## Rooms -/

/-- The bit for each slot that holds a table (R191, R301). -/
def validBits {α : Type} (l : List (Option α)) : Nat :=
  (indexed l).foldl (fun a p => a + b2n p.2.isSome * 2 ^ p.1) 0

def Room.seqStatus (rm : Room) : List (BitVec 64) :=
  let q := rm.seq
  let full := rm.frz.any fun f => match f with
    | .queue .. => true
    | _ => false
  wordsOf 1 [(0, 16, q.segment.toNat), (16, 1, b2n q.ended), (17, 1, b2n q.structStop), (18, 1, b2n !rm.frz.isEmpty),
    (19, 1, b2n full), (24, 8, q.pb.toNat), (32, 17, q.bptr), (49, 3, q.loops.length)]

/-- ROOM_DW_STATUS (R458): the requests in flight of every stream that was bound to a context, so that SLOTS is their sum. [DEDUCED: log 71.] -/
def Room.dwStatus (rm : Room) : List (BitVec 64) :=
  let d := rm.dw
  let infl (c : Nat) : Nat := ((d.streams.filter fun t => t.ctx == c).map (·.infl)).foldl (· + ·) 0
  wordsOf 1 [(0, 1, b2n (d.active 0)), (1, 1, b2n (d.active 1)), (2, 1, b2n (d.active 2)), (3, 1, b2n (d.active 3)),
    (4, 6, d.slots), (16, 6, infl 0), (24, 6, infl 1), (32, 6, infl 2), (40, 6, infl 3)]

/-- [DEDUCED: log 75.] -/
def Room.latchView (rm : Room) : List (BitVec 64) :=
  let l := rm.latch
  let w := l.word l.sel.toNat
  wordsOf 2 [(0, 6, l.sel.toNat), (8, 8, latGen w), (16, 1, b2n (latMode w)), (32, 16, latExpect w), (48, 16, latArrived w),
    (64, 16, latNext w), (80, 16, (l.releases.toList.getD l.sel.toNat 0).toNat)]

def Room.latchStatus (rm : Room) : List (BitVec 64) :=
  let active := (indexed rm.latch.watches.toList).foldl (fun a p => a + b2n p.2.isSome * 2 ^ p.1) 0
  [setField rm.latch.status 8 8 active]

def Room.mslotView (rm : Room) (period : Nat) : List (BitVec 64) :=
  let n := rm.comm.mslotSel.toNat
  match rm.comm.ring n with
  | none => wordsOf 2 [(0, 2, n)]
  | some g => wordsOf 2 [(0, 2, n), (2, 1, 1), (16, 13, g.used), (32, 16, g.expSeq.toNat), (48, 7, min (g.present period) 64),
      (64, 32, g.processed.toNat), (96, 16, g.refused.toNat)]

def Room.sendView (rm : Room) : List (BitVec 64) :=
  let n := rm.comm.sendSel.toNat
  let k := rm.comm.memSel.toNat
  match rm.comm.sends[n]? with
  | none => wordsOf 1 [(0, 4, n), (4, 4, k)]
  | some c =>
    let waiting := rm.frz.any fun f => match f with
      | .credit _ m => m == n
      | _ => false
    let d := (c.dests[if c.tgt = 4 then k else 0]?).getD default
    wordsOf 1 [(0, 4, n), (4, 4, k), (8, 1, 1), (9, 1, b2n waiting), (16, 13, d.cred), (32, 13, d.wmir), (48, 16, c.seq.toNat)]

def Room.fabTrack (rm : Room) : List (BitVec 64) :=
  match rm.out.buf with
  | [] => wordsOf 1 [(0, 5, rm.out.trk.length), (32, 32, rm.out.waitGc.toNat)]
  | d :: _ =>
    let f := rm.flagWait d
    let t := rm.trkWait d
    wordsOf 1 [(0, 5, rm.out.trk.length), (5, 1, b2n f), (6, 1, b2n t), (16, 16, if f || t then d.tag.toNat else 0),
      (32, 32, rm.out.waitGc.toNat)]

/-- [DESIGN CHOICE: log 33.] -/
def Room.traceCtl (rm : Room) : List (BitVec 64) :=
  let t := rm.trace
  t.ctl :: (wordsOf 1 [(0, 10, t.recs.length), (10, 1, b2n t.wrapped), (11, 1, b2n t.stopped), (16, 32, t.lost.toNat)])

def State.ptabId (s : State) (slot : Nat) : List (BitVec 64) :=
  match s.tabs.ptab.toList.getD slot none with
  | none => wordsOf 1 [(0, 6, slot)]
  | some t => wordsOf 1 [(0, 6, slot), (8, 2, t.kind.toNat), (10, 1, b2n t.source), (32, 32, t.id.toNat)]

def State.ctabId (s : State) (slot : Nat) : List (BitVec 64) :=
  match s.tabs.ctab.toList.getD slot none with
  | none => wordsOf 1 [(0, 5, slot)]
  | some t => wordsOf 1 [(0, 5, slot), (8, 2, field t.header 0 2), (10, 1, b2n t.source), (32, 32, field t.header 224 32)]

def State.roomReg (s : State) (r : RoomId) (base : Nat) : Option (List (BitVec 64)) :=
  let rm := s.room r
  let d := rm.dw
  let ql (u : Nat) : Nat := (rm.queue u).length
  if 0x100 ≤ base && base < 0x500 then some [rm.seq.get ((base - 0x100) / 0x40)]
  else match base with
  | 0x000 => some rm.seqStatus
  | 0x040 => some (wordsOf 1 [(0, 4, ql 1), (4, 4, ql 2), (8, 4, ql 3), (12, 4, ql 4), (16, 4, ql 5), (20, 4, ql 6)])
  | 0x080 => some (wordsOf 1 [(0, 32, rm.seq.freezeGc.toNat), (32, 16, rm.seq.seqFault.toNat),
      (48, 16, rm.seq.outFault.toNat)])
  | 0x500 => some [rm.fmt]
  | 0x540 => some (splitWords 1 (validBits s.tabs.ptab.toList))
  | 0x580 => some (s.ptabId rm.ptabSel.toNat)
  | 0x5C0 => some (splitWords 1 (validBits s.tabs.ctab.toList))
  | 0x600 => some (s.ctabId rm.ctabSel.toNat)
  | 0x640 => some [rm.mx.tileWord]
  | 0x680 => some (wordsOf 1 [(0, 40, rm.mx.entryGc.toNat), (40, 16, rm.mx.skipFault.toNat)])
  | 0x6C0 => some [rm.hatch.st.zeroExtend 64]
  | 0x700 => some (wordsOf 1 [(0, 40, rm.vec.issueGc.toNat), (40, 16, rm.vec.skipFault.toNat)])
  | 0x740 => some (wordsOf 1 [(0, 12, rm.pan.own.toNat), (16, 12, rm.pan.gated.toNat), (32, 12, rm.pan.waking.toNat)])
  | 0x780 => some [rm.pan.status]
  | 0x7C0 => some (wordsOf 1 [(0, 8, rm.pan.gap.toNat), (16, 32, rm.pan.passes.toNat)])
  | 0x800 => some (wordsOf 1 [(0, 12, rm.pan.tagLine.toNat), (12, 2, (sget rm.pan.tags rm.pan.tagLine.toNat).toNat),
      (14, 2, (sget rm.pan.bits rm.pan.tagLine.toNat).toNat)])
  | 0x840 => some rm.dwStatus
  | 0x880 => some (wordsOf 4 [(0, 32, d.reqIssued.toNat), (32, 32, d.linesFetched.toNat), (64, 32, d.linesUsed.toNat),
      (96, 16, d.suppressed.toNat), (112, 16, d.fenced.toNat), (128, 32, d.linesUnused.toNat), (160, 32, d.linesPut.toNat)])
  | 0x8C0 => some (wordsOf 4 [(0, 32, d.leadSum.toNat), (32, 32, d.leadReads.toNat), (64, 32, d.lagSum.toNat),
      (96, 32, d.lagReads.toNat), (128, 16, d.leadMin.toNat), (144, 16, d.lagMax.toNat), (160, 16, d.lateUnrep.toNat)])
  | 0x900 => some rm.latchView
  | 0x940 => some rm.latchStatus
  | 0x980 => some (rm.mslotView (s.wing (wingOf r)).periods)
  | 0x9C0 => some rm.sendView
  | 0xA00 => some rm.fabTrack
  | 0xA40 => some rm.traceCtl
  | 0xFC0 => some [rm.w1c]
  | _ => none

/-! ## Any address -/

/-- The register or record at an offset of a block: where it begins, and its words. -/
def State.regAt (s : State) (b : Block) (off : Nat) : Option (Nat × List (BitVec 64)) :=
  let base := off / 0x40 * 0x40
  let at0 (l : Option (List (BitVec 64))) : Option (Nat × List (BitVec 64)) := l.map fun w => (base, w)
  match b with
  | .threshold => s.thrReg off
  | .palbo => at0 (s.palReg base)
  | .porch p => at0 (s.porchReg p base)
  | .cellar c => at0 (s.cellarReg c base)
  | .newel w => at0 (s.newelReg w base)
  | .room r =>
    if off ≥ 0x4000 then
      windowRec off 0x4000 32 512 fun i => ((s.room r).trace.recs.getD i 0).toNat
    else at0 (s.roomReg r base)

/-- Is the power domain of a block on (R789)? -/
def State.blockOn (s : State) (b : Block) : Bool :=
  let p := s.thr.pwr
  match b with
  | .threshold => true
  | .palbo => p.palbo
  | .porch n => bit p.porch n.val
  | .cellar n => bit p.cellar n.val
  | .newel w => bit p.spine w.val
  | .room r => (s.room r).on

/-- Is a register one that needs GB_READ (R791)? -/
def isGbReg (b : Block) (off : Nat) : Bool :=
  b == .threshold && ((0x340 ≤ off && decide (off < 0x440)) || decide (off ≥ 0x40000))

/-- Before boot step 8 of R702 (R790): no access but the board port's reads of the Threshold window. -/
def State.preBoot (s : State) : Bool := s.job.js == .off || s.job.js == .selfTest

end Sys2Proof.Machine
end

