-- ==== Sys2Proof/Machine/Mgmt.lean ====
section
/-! DEFINITION. Management accesses (R780 to R794): what is checked, what a read captures, what each writable word does,
and the ports that make accesses. -/

namespace Sys2Proof.Machine

/-! ## Responses (R783) -/

def respOk : Nat := 0
def respDenied : Nat := 1
def respState : Nat := 2
def respUnmapped : Nat := 3
def respAlign : Nat := 4
def respMalformed : Nat := 5

/-! ## Writable words (R13, R813) -/

/-- The RW bits and the W1C bits of word `j` of the register at `base`. -/
def wordMasks (b : Block) (base j : Nat) : BitVec 64 × BitVec 64 :=
  match b with
  | .threshold =>
    if base = 0x100 && j == 0 then (0, 0x3)
    else if base = 0x180 && j == 0 then (0, 0x6)
    else if base = 0x1C0 && j == 0 then (0, 0xA)
    else if base = 0x300 && j == 0 then (0, 0x80)
    else if base = 0x340 && j == 1 then (0xFFFFFFFFFFFF, 0)
    else if base = 0x340 && j == 2 then (0, 0x3)
    else if base = 0x440 && j == 1 then (0xFFFFFFFFFFFF, 0x3000000000000)
    else if base = 0x480 && j == 0 then (0xFF01, 0x2)
    else if base = 0x4C0 && j == 0 then (0x3F, 0x380)
    else if base = 0x500 && j == 0 then (0x3, 0)
    else if base = 0x540 && j == 0 then (0, 0x300)
    else (0, 0)
  | .palbo =>
    if base = 0 && j == 0 then (0xFFFFFFFFFF7F, 0)
    else if base = 0 && j == 1 then (0xFFFFFFFFFFC0, 0)
    else if base = 0x40 then (0, 0x18)
    else (0, 0)
  | .porch _ =>
    if base = 0 && j == 0 then (0xFFFFFFFFF1FFFFFF, 0)
    else if base = 0 && j == 1 then (0x1F, 0)
    else if base = 0x40 then (0x1FFFFFF0FFF, 0)
    else (0, 0)
  | .cellar _ => if base = 0x40 && j == 0 then (0, 0x7) else if base = 0x80 then (0xFF, 0x100) else (0, 0)
  | .newel _ => if base = 0x80 then (0, 0x300) else (0, 0)
  | .room _ =>
    match base with
    | 0x500 => (0, 0xFF)
    | 0x580 => (0x3F, 0)
    | 0x600 => (0x1F, 0)
    | 0x780 => (0, 0xFF)
    | 0x7C0 => (0xFF, 0)
    | 0x800 => (0xFFF, 0)
    | 0x900 => if j = 0 then (0x3F, 0) else (0, 0)
    | 0x940 => (0, 0x3F)
    | 0x980 => if j = 0 then (0x3, 0) else (0, 0)
    | 0x9C0 => (0xFF, 0)
    | 0xA40 => if j = 0 then (0xFFFFFFFF007FFF07, 0) else (0, 0)
    | _ => (0, 0)

/-- A word after a write: RW fields take the data, a 1 clears a W1C bit, and a W1C bit that hardware sets in the same cycle
stays set (R13, R15, R16). -/
def writtenWord (old data hw rw w1c : BitVec 64) : BitVec 64 :=
  ((old &&& ~~~(rw ||| (data &&& w1c))) ||| (data &&& rw)) ||| (hw &&& w1c)

/-- The W1C bits that hardware sets in the cycle in which the write clears them (R753). [DESIGN CHOICE: log 37.] -/
def raceBits (data hw w1c : BitVec 64) : BitVec 64 := data &&& hw &&& w1c

/-- A W1C_RACE register after collisions (R753): COUNT, the bit number in its register, the register's offset. -/
def raceWord (old races : BitVec 64) (base j : Nat) : BitVec 64 :=
  let bits := indicesOf 64 (fun i => bit races i)
  match bits.getLast? with
  | none => old
  | some i =>
    BitVec.ofNat 64 (pack [(0, 16, min (field old 0 16 + bits.length) 0xFFFF), (16, 9, 64 * j + i), (32, 24, base)])

/-- The collisions of a write are recorded in the owning block (R753). [DESIGN CHOICE: log 37.] -/
def State.addRace (s : State) (b : Block) (base j : Nat) (races : BitVec 64) : State :=
  if races = 0#64 then s
  else match b with
    | .threshold => { s with thr := { s.thr with w1c := raceWord s.thr.w1c races base j } }
    | .palbo => { s with pal := { s.pal with w1c := raceWord s.pal.w1c races base j } }
    | .porch p => { s with fab := { s.fab with
        w1c := s.fab.w1c.set p.val (raceWord s.fab.w1c[p.val] races base j) } }
    | .cellar c =>
      let k := s.mem.cellars[c.val]
      { s with mem := { s.mem with cellars := s.mem.cellars.set c.val { k with w1c := raceWord k.w1c races base j } } }
    | .newel w => s.modWing w fun g => { g with w1c := raceWord g.w1c races base j }
    | .room r => s.modRoom r fun rm => { rm with w1c := raceWord rm.w1c races base j }

/-! ## What a written word does -/

/-- A written word of the Threshold. -/
def State.putThr (s : State) (base j : Nat) (v : BitVec 64) : State :=
  let clk (f : Clock → Clock) : State := { s with thr := { s.thr with clk := f s.thr.clk } }
  match base with
  | 0x100 => { s with job := { s.job with miss := bit v 0, overrun := bit v 1 } }
  | 0x180 => clk fun k => { k with alignFail := bit v 1, realigned := bit v 2 }
  | 0x1C0 => clk fun k => { k with refLoss := bit v 1, expired := bit v 3 }
  | 0x300 => { s with thr := { s.thr with load := { s.thr.load with fail := bit v 7 } } }
  | 0x340 =>
    let g := s.thr.guest
    let g := if j = 1 then
        let m := v.extractLsb' 0 48
        if g.readMark ≤ m && m ≤ g.count then { g with readMark := m } else g
      else { g with overwrite := bit v 0, faultDrop := bit v 1 }
    { s with thr := { s.thr with guest := g } }
  | 0x440 =>
    let f := s.flt
    let m := v.extractLsb' 0 48
    { s with flt := { f with
        readMark := if f.readMark ≤ m && m ≤ f.count then m else f.readMark
        overwrite := bit v 48, drop := bit v 49 } }
  | 0x480 => { s with smoke := { s.smoke with debug := bit v 0, drop := bit v 1, checkEn := v.extractLsb' 8 8 } }
  | 0x4C0 => { s with mir := { s.mir with
      enable := bit v 0, port := Fin.ofNat 32 (field v 1 5), mismatch := bit v 7, stopLate := bit v 8, lag := bit v 9 } }
  | 0x500 => { s with thr := { s.thr with stw := { s.thr.stw with cmd := v.extractLsb' 0 2 } } }
  | 0x540 => { s with thr := { s.thr with stw := { s.thr.stw with late := bit v 8, discard := bit v 9 } } }
  | _ => s

/-- A written word of a Room. A trace control word waits for the next boundary (R775). -/
def Room.putWord (rm : Room) (base : Nat) (v : BitVec 64) : Room :=
  match base with
  | 0x500 => { rm with fmt := v }
  | 0x580 => { rm with ptabSel := v.extractLsb' 0 6 }
  | 0x600 => { rm with ctabSel := v.extractLsb' 0 5 }
  | 0x780 => { rm with pan := { rm.pan with status := v } }
  | 0x7C0 => { rm with pan := { rm.pan with gap := v.extractLsb' 0 8 } }
  | 0x800 => { rm with pan := { rm.pan with tagLine := v.extractLsb' 0 12 } }
  | 0x900 => { rm with latch := { rm.latch with sel := v.extractLsb' 0 6 } }
  | 0x940 => { rm with latch := { rm.latch with status := setField rm.latch.status 0 6 (field v 0 6) } }
  | 0x980 => { rm with comm := { rm.comm with mslotSel := v.extractLsb' 0 2 } }
  | 0x9C0 => { rm with comm := { rm.comm with sendSel := v.extractLsb' 0 4, memSel := v.extractLsb' 4 4 } }
  | 0xA40 => { rm with trace := { rm.trace with pending := some v } }
  | _ => rm

/-- A written word of a register without an operation of its own. -/
def State.putWord (s : State) (b : Block) (base j : Nat) (v : BitVec 64) : State :=
  match b with
  | .threshold => s.putThr base j v
  | .palbo => { s with pal := { s.pal with viol := bit v 3, access := bit v 4 } }
  | .porch _ => s
  | .cellar c =>
    let k := s.mem.cellars[c.val]
    let k := if base = 0x40 then { k with corr := bit v 0, due := bit v 1, poisonRd := bit v 2 }
      else { k with hours := if field v 0 8 = 0 then k.hours else v.extractLsb' 0 8, behind := bit v 8 }
    { s with mem := { s.mem with cellars := s.mem.cellars.set c.val k } }
  | .newel w => s.modWing w fun g => { g with strLimit := bit v 8, relSlow := bit v 9 }
  | .room r => s.modRoom r fun rm => rm.putWord base v

/-! ## PALBO_HOST_CFG (R670 to R672) -/

/-- Do the slots and the Doorplate of a configuration break R671? [DEDUCED: log 42.] -/
def hostCfgBad (cfg : BitVec 128) : Bool :=
  let sub := 256 * field cfg 8 40
  let top := sub + 256 * (field cfg 1 6 + 1)
  let plate := 64 * field cfg 70 42
  decide (sub < compBase) || decide (top > 0x070000000000) || decide (plate < compBase) ||
    decide (plate + 64 > 0x070000000000) || (decide (sub ≤ plate) && decide (plate < top))

/-- ENABLE changes from 0 to 1 (R672). -/
def State.hostOn (s : State) : State :=
  let n := s.pal.nslot
  let s := { s with pal := { s.pal with last := Vector.replicate 64 0, dseq := 0, plate := none } }
  let s := (List.range n).foldl (fun (s : State) i =>
    let s := s.palReq (.mon i) 0x03 (s.pal.submit + 256 * i - compBase) false [] false
    { s with pal := { s.pal with armed := s.pal.armed ||| (1#64 <<< i) } }) s
  s.doorplate

/-- ENABLE changes from 1 to 0 (R672): `p` is the configuration left. -/
def State.hostOff (s : State) (sub n : Nat) : State :=
  let s := (List.range n).foldl (fun (s : State) i => s.palReq (.mon i) 0x04 (sub + 256 * i - compBase) false [] false) s
  { s with pal := { s.pal with armed := 0, plate := none, card := none, reread := none } }

/-- A write of a word of PALBO_HOST_CFG. [DEDUCED: log 42.] -/
def State.hostCfgWrite (s : State) (j : Nat) (v : BitVec 64) : Nat × State :=
  match s.job.js with
  | .loading | .loaded | .running | .draining => (respState, s)
  | _ =>
    let old := s.pal.cfg
    let sub := s.pal.submit
    let n := s.pal.nslot
    if j = 1 then (respOk, { s with pal := { s.pal with cfg := setField old 64 64 v.toNat } })
    else
      let new := setField old 0 64 (setField v 7 1 (b2n (bit old 7))).toNat
      if bit v 0 && hostCfgBad new then
        let s := { s with pal := { s.pal with cfg := setField (setField old 0 1 0) 7 1 1 } }
        (respOk, if bit old 0 then s.hostOff sub n else s)
      else
        let s := { s with pal := { s.pal with cfg := if bit v 0 then setField new 7 1 0 else new } }
        (respOk, if bit v 0 && !(bit old 0) then s.hostOn else if bit old 0 && !(bit v 0) then s.hostOff sub n else s)

/-! ## The rank table and the collective table (R587 to R591, R636, R787, R788) -/

/-- May the rank table be written (R591)? -/
def State.mapWritable (s : State) : Bool :=
  (s.porch 0).mapOpen && (match s.job.js with
    | .configured | .loaded | .done | .faulted => true
    | _ => false)

/-- A RANKMAP record (R725). -/
def State.rankRec (s : State) (o : Origin) (target index : Nat) (value : Nat) : State :=
  s.gbPush 0x09 (originCode o) (originOid o) 1 (packBytes 24 [(0, 8, target), (16, 16, index), (64, 128, value)])

/-- A change of both Porches. [DEDUCED: log 30.] -/
def State.bothPorches (s : State) (f : Porch → Porch) : State :=
  { s with fab := { s.fab with porches := s.fab.porches.map f } }

/-- A write of a word of PORCH_RANK_CFG. [DEDUCED: log 30.] -/
def State.rankCfgWord (s : State) (o : Origin) (j : Nat) (v : BitVec 64) : Nat × State :=
  if !s.mapWritable then (respState, s)
  else
    let put (x : Porch) : Porch :=
      { x with cfg := if j = 0 then setField x.cfg 0 64 v.toNat else setField x.cfg 64 5 (field v 0 5) }
    let s := s.bothPorches put
    (respOk, s.rankRec o 0 j ((s.porch 0).cfg.toNat))

/-- A write of PORCH_RANK_ENTRY (R788): INDEX, and the entry with its OOS kept. [DEDUCED: log 30.] -/
def State.rankEntryWord (s : State) (o : Origin) (p : PorchId) (v : BitVec 64) : Nat × State :=
  let i := field v 0 12
  let s1 := s.modPorch p fun x => { x with entryIdx := BitVec.ofNat 12 i }
  if !s.mapWritable then (respState, s1)
  else
    let put (x : Porch) : Porch := { x with entries := sput x.entries i (setField (setField v 0 16 0) 41 1
      (b2n (bit (x.entry i) 41))) }
    let s := s1.bothPorches put
    (respOk, s.rankRec o 1 i v.toNat)

/-- Is an entry of the collective table refused (R636)? -/
def Porch.ctxBad (x : Porch) (e : BitVec 128) : Bool :=
  field e 1 2 == 3 || field e 29 3 != 0 || field e 51 5 != 0 || field e 62 2 != 0 || field e 70 2 != 0 ||
    decide (field e 4 12 + (field e 16 13 - 1) * field e 32 12 ≥ x.nranks)

/-- A write of a word of PORCH_COLL_ENTRY (R787). [DEDUCED: log 30.] -/
def State.collWord (s : State) (o : Origin) (p : PorchId) (j : Nat) (v : BitVec 64) : Nat × State :=
  if j = 0 then (respOk, s.modPorch p fun x => { x with stage0 := some v })
  else if j = 1 then (respOk, s.modPorch p fun x => { x with stage1 := some v })
  else
    let x := s.porch p
    let c := field v 0 4
    let s1 := s.setPorch p { x with collSel := BitVec.ofNat 4 c, stage0 := none, stage1 := none }
    match x.stage0, x.stage1 with
    | some a, some b =>
      let e := BitVec.ofNat 128 (a.toNat + 2 ^ 64 * b.toNat)
      if !s.mapWritable || x.ctxBad e then (respState, s1)
      else
        let put (y : Porch) : Porch :=
          { y with coll := if h : c < 16 then y.coll.set c { y.coll[c] with entry := e } else y.coll }
        (respOk, (s1.bothPorches put).rankRec o 2 c e.toNat)
    | _, _ => (respOk, s1)

/-! ## Registers with an operation of their own -/

/-- A change of debug mode (R768): a MODE event. -/
def State.modeRec (s : State) (o : Origin) (old new : Nat) : State :=
  s.gbPush 0x04 (originCode o) (originOid o) 1 [BitVec.ofNat 8 old, BitVec.ofNat 8 new, BitVec.ofNat 8 (b2n s.smoke.debug)]

/-- The Mirror port after a write of THRESH_MIRROR_CTL (R758, R759): the port left, and the port whose bring-up begins. [DESIGN CHOICE: log 43.] -/
def State.mirrorSwitch (s : State) (was : Bool) (old : PortId) : State :=
  let m := s.mir
  let drop (s : State) : State := s.modPorch (porchOf old) fun x => x.modPort (portIn old) fun q =>
    { q with mirror := false, live := false, retraining := false }
  let start (s : State) : State := s.modPorch (porchOf m.port) fun x => x.modPort (portIn m.port) fun q =>
    { q with mirror := true, live := false, retraining := true, downSince := s.rc, lost := false }
  let moved := old != m.port
  let s := if was && (!m.enable || moved) then drop s else s
  if m.enable && (!was || moved) then start s else s

/-- Does a write of a word change DEBUG of THRESH_DEBUG_CTL, or set GO of THRESH_STW_CTL? -/
def State.setsDebug (s : State) (b : Block) (base j : Nat) (data : BitVec 64) : Bool :=
  b == .threshold && base == 0x480 && j == 0 && bit data 0 != s.smoke.debug

def setsGo (b : Block) (base j : Nat) (data : BitVec 64) : Bool :=
  b == .threshold && base == 0x500 && j == 0 && bit data 2

/-- GO (R804, R811): the package originates CMD. -/
def State.goWrite (s : State) (data : BitVec 64) : State :=
  let k := field data 0 2
  if k = 3 then s else originate k s

/-- Is a write refused for the job state (R758, R768, R804)? [DESIGN CHOICE: log 35.] -/
def State.wordState (s : State) (b : Block) (base j : Nat) (data : BitVec 64) : Bool :=
  (s.setsDebug b base j data && !(match s.job.js with
    | .configured | .loaded | .done | .faulted => true
    | _ => false)) ||
  (b == .threshold && base == 0x4C0 && j == 0 && s.job.js != .configured) ||
  (setsGo b base j data && field data 0 2 != 3 && !(s.stopLegal (field data 0 2)))

/-- Is a write of THRESH_MIRROR_CTL ignored (R758)? [DESIGN CHOICE: log 43.] -/
def State.mirrorIgnored (s : State) (b : Block) (base j : Nat) (data : BitVec 64) : Bool :=
  let p : PortId := Fin.ofNat 32 (field data 1 5)
  b == .threshold && base == 0x4C0 && j == 0 && ((s.porch (porchOf p)).port (portIn p)).enable

/-- The MGMT record of a write that changed the value of a word (R725, R726). [DESIGN CHOICE: log 38.] -/
def State.mgmtRec (s : State) (o : Origin) (addr : Nat) (data before : BitVec 64) : State :=
  s.gbPush 0x0A (originCode o) (originOid o) 1
    (packBytes 24 [(0, 48, addr), (64, 64, data.toNat), (128, 64, before.toNat)])

/-- Word `j` of the register at `base`, as it reads. -/
def State.wordAt (s : State) (b : Block) (base j : Nat) : BitVec 64 :=
  match s.regAt b base with
  | some (_, ws) => ws.getD j 0
  | none => 0

/-- Bits whose change is not recorded: READ_MARK (R726). [DESIGN CHOICE: log 38.] -/
def unrecorded (b : Block) (base j : Nat) : BitVec 64 :=
  if b == .threshold && (base == 0x340 || base == 0x440) && j == 1 then 0xFFFFFFFFFFFF else 0

/-- The effect of a write that passed the checks of its rights (R784 to R788): its response and the state. -/
def State.applyWord (s : State) (o : Origin) (b : Block) (base j addr : Nat) (data hw : BitVec 64) : Nat × State :=
  let m := wordMasks b base j
  let before := s.wordAt b base j
  let v := writtenWord before data hw m.1 m.2
  if s.wordState b base j data then (respState, s)
  else if s.mirrorIgnored b base j data then (respOk, s)
  else
    let x : Nat × State := match b, base with
      | .palbo, 0 => s.hostCfgWrite j v
      | .porch _, 0 => s.rankCfgWord o j v
      | .porch p, 0x40 => s.rankEntryWord o p (data &&& m.1)
      | .porch p, 0x80 => s.collWord o p j data
      | _, _ => (respOk, if m.1 ||| m.2 = 0#64 then s else s.putWord b base j v)
    let was := s.mir.enable
    let port := s.mir.port
    let dbg := s.smoke.debug
    let table := match b with
      | .porch _ => base == 0 || base == 0x40
      | _ => false
    let t := x.2.addRace b base j (raceBits data hw m.2)
    let after := if base = 0xA40 then (match b with
        | .room r => if j = 0 then v else ((t.room r).traceCtl.getD 1 0)
        | _ => t.wordAt b base j) else t.wordAt b base j
    let changed := (before ^^^ after) &&& ~~~(unrecorded b base j) != 0#64
    let t := if changed && !table && x.1 == respOk then t.mgmtRec o addr data before else t
    let t := if t.smoke.debug != dbg then t.modeRec o t.job.smode.toNat t.job.smode.toNat else t
    let t := if b == .threshold && base == 0x4C0 then t.mirrorSwitch was port else t
    (x.1, if setsGo b base j data then t.goWrite data else t)

/-! ## Accesses -/

/-- The rights that an access needs, in the order in which they are checked (R791). -/
def State.needs (s : State) (b : Block) (off base j : Nat) (write : Bool) (data : BitVec 64) : List Nat :=
  (if write then [rMgmtWrite] else [rMgmtRead]) ++ (if isGbReg b off then [rGbRead] else []) ++
  (if !write then [] else
    (if b == .threshold && base == 0x340 && j == 1 then [rGbMark] else []) ++
    (match b with
      | .porch _ => if base = 0 || base = 0x40 || base = 0x80 then [rRankMap] else []
      | _ => []) ++
    (if s.setsDebug b base j data then [rDebug] else []) ++ (if setsGo b base j data then [rStop] else []))

/-- Where an access goes. -/
structure MgmtAt where
  block : Block
  off   : Nat
  base  : Nat
  words : List (BitVec 64)
  deriving Repr

/-- The register or record word that an address names, or the response of an access that none serves (R780, R782, R783,
R790). [DESIGN CHOICE: log 35.] -/
def State.mgmtAt (s : State) (o : Origin) (addr : Nat) (write : Bool) : Nat ⊕ MgmtAt :=
  let early := match blockOf addr with
    | some (.threshold, _) => !write && o == .board
    | _ => false
  if s.preBoot && !early then .inl respState
  else if addr % 8 ≠ 0 then .inl respAlign
  else match blockOf addr with
    | none => .inl respUnmapped
    | some (b, off) =>
      let absent := match b with
        | .room r => decide (r.val ≥ s.enabledRooms)
        | _ => false
      match s.regAt b off with
      | none => .inl respUnmapped
      | some (base, ws) =>
        if absent || decide ((off - base) / 8 ≥ ws.length) then .inl respUnmapped
        else .inr { block := b, off := off, base := base, words := ws }

/-- The origin's capture ends (R786). -/
def State.dropCapture (s : State) (o : Origin) : State :=
  { s with thr := { s.thr with ports := { s.thr.ports with caps := s.thr.ports.caps.filter fun c => c.origin != o } } }

/-- [DESIGN CHOICE: log 36.] -/
def State.capture (s : State) (o : Origin) : Option Capture := s.thr.ports.caps.find? fun c => c.origin == o

def State.setCapture (s : State) (c : Capture) : State :=
  let s := s.dropCapture c.origin
  { s with thr := { s.thr with ports := { s.thr.ports with caps := s.thr.ports.caps ++ [c] } } }

/-- A read (R783, R786, R789 to R791): response, data, and the state with what the port has captured. [DESIGN CHOICE: log 36.] -/
def State.mgmtRead (s : State) (o : Origin) (addr : Nat) : Nat × BitVec 64 × State :=
  match s.mgmtAt o addr false with
  | .inl resp => (resp, 0, s.dropCapture o)
  | .inr a =>
    match (s.needs a.block a.off a.base 0 false 0).find? fun r => !(s.may o r) with
    | some r => (respDenied, 0, (s.dropCapture o).denyOf o r addr)
    | none =>
      if !(s.blockOn a.block) then (respState, 0, s.dropCapture o)
      else
        let j := (a.off - a.base) / 8
        let start := addr - 8 * j
        if j = 0 then
          (respOk, a.words.getD 0 0, if a.words.length ≤ 1 then s.dropCapture o
            else s.setCapture { origin := o, base := start, words := a.words, lastW := 0 })
        else match s.capture o with
          | some c =>
            if c.base = start && c.lastW < j then (respOk, c.words.getD j 0, s.setCapture { c with lastW := j })
            else (respOk, a.words.getD j 0, s.setCapture { origin := o, base := start, words := a.words, lastW := 64 })
          | none => (respOk, a.words.getD j 0, s)

/-- A write (R783, R784, R789 to R791): response and state. [DESIGN CHOICE: log 35.] -/
def State.mgmtWrite (s : State) (o : Origin) (addr : Nat) (data hw : BitVec 64) : Nat × State :=
  let s := s.dropCapture o
  match s.mgmtAt o addr true with
  | .inl resp => (resp, s)
  | .inr a =>
    let j := (a.off - a.base) / 8
    match (s.needs a.block a.off a.base j true data).find? fun r => !(s.may o r) with
    | some r => (respDenied, s.denyOf o r addr)
    | none =>
      if !(s.blockOn a.block) then (respState, s) else s.applyWord o a.block a.base j addr data hw

/-! ## The commands of the ports

A write, and a read that is denied, waits while its record could not be queued (R731). -/

/-- A write by a port. [DESIGN CHOICE: log 35; DESIGN CHOICE: log 37.] -/
def mgmtPut (o : Origin) (addr : Nat) (data hw : BitVec 64) (s : State) : State :=
  if s.gbRoom then (s.mgmtWrite o addr data hw).2 else s

/-- The address of a block's register. -/
def thrAddr (off : Nat) : Nat := 0x020000000000 + off
def palAddr (off : Nat) : Nat := 0x020000100000 + off
def porchAddr (p : PorchId) (off : Nat) : Nat := 0x020000200000 + 0x100000 * p.val + off
def roomAddr (r : RoomId) (off : Nat) : Nat := 0x020001000000 + 0x100000 * r.val + off

/-- MGMT_REG_WRITE. -/
def mgmtRegWrite (o : Origin) (addr : BitVec 48) (data hw : BitVec 64) (s : State) : State := mgmtPut o addr.toNat data hw s

/-- MGMT_READ_CAPTURE: a read by a port. -/
def mgmtReadCapture (o : Origin) (addr : BitVec 48) (s : State) : State :=
  if s.gbRoom then (s.mgmtRead o addr.toNat).2.2 else s

/-- GB_READ_MARK_WRITE. -/
def gbReadMarkWrite (o : Origin) (data : BitVec 64) (s : State) : State := mgmtPut o (thrAddr 0x348) data 0 s

/-- FAULT_READ_MARK_WRITE. -/
def faultReadMarkWrite (o : Origin) (data : BitVec 64) (s : State) : State := mgmtPut o (thrAddr 0x448) data 0 s

/-- DEBUG_ENTER. -/
def debugEnter (o : Origin) (data : BitVec 64) (s : State) : State :=
  if bit data 0 && !s.smoke.debug then mgmtPut o (thrAddr 0x480) data 0 s else s

/-- DEBUG_LEAVE. -/
def debugLeave (o : Origin) (data : BitVec 64) (s : State) : State :=
  if !(bit data 0) && s.smoke.debug then mgmtPut o (thrAddr 0x480) data 0 s else s

/-- MIRROR_ENABLE_WRITE: the write, and the bring-up of the port that it names (R759). [DESIGN CHOICE: log 43.] -/
def mirrorEnableWrite (o : Origin) (data : BitVec 64) (b : PortBringUp) (s : State) : State :=
  if !(bit data 0) || !s.gbRoom then s
  else
    let was := s.mir.enable && s.mirrorPort.live
    let s := mgmtPut o (thrAddr 0x4C0) data 0 s
    let q := s.mirrorPort
    if s.mir.enable && q.mirror && q.retraining && !was then bringUpPort (porchOf s.mir.port) (portIn s.mir.port) b s else s

/-- TRACE_CTL_WRITE. -/
def traceCtlWrite (o : Origin) (r : RoomId) (data : BitVec 64) (s : State) : State := mgmtPut o (roomAddr r 0xA40) data 0 s

/-- COLL_ENTRY_STAGE. -/
def collEntryStage (o : Origin) (p : PorchId) (hi : Bool) (data : BitVec 64) (s : State) : State :=
  mgmtPut o (porchAddr p (if hi then 0x88 else 0x80)) data 0 s

/-- COLL_ENTRY_COMMIT. -/
def collEntryCommit (o : Origin) (p : PorchId) (data : BitVec 64) (s : State) : State := mgmtPut o (porchAddr p 0x90) data 0 s

/-- RANK_ENTRY_WRITE. -/
def rankEntryWrite (o : Origin) (p : PorchId) (data : BitVec 64) (s : State) : State := mgmtPut o (porchAddr p 0x40) data 0 s

/-- RANK_CFG_WRITE. -/
def rankCfgWrite (o : Origin) (p : PorchId) (hi : Bool) (data : BitVec 64) (s : State) : State :=
  mgmtPut o (porchAddr p (if hi then 0x8 else 0x0)) data 0 s

/-- HOST_CFG_ENABLE. -/
def hostCfgEnable (o : Origin) (data : BitVec 64) (s : State) : State :=
  if bit data 0 then mgmtPut o (palAddr 0) data 0 s else s

/-- HOST_CFG_DISABLE. -/
def hostCfgDisable (o : Origin) (data : BitVec 64) (s : State) : State :=
  if bit data 0 then s else mgmtPut o (palAddr 0) data 0 s

/-- GO_STOP, GO_QUIESCE and GO_FREEZE: a write of CMD and GO to THRESH_STW_CTL (R804, R811). -/
def goCmd (kind : Nat) (o : Origin) (s : State) : State := mgmtPut o (thrAddr 0x500) (BitVec.ofNat 64 (4 + kind)) 0 s

/-! ## The board management port (R793) -/

/-- [DESIGN CHOICE: log 39.] -/
def State.i3cAnswer (s : State) (resp : Nat) (data : BitVec 64) : State :=
  { s with thr := { s.thr with ports := { s.thr.ports with i3cResp := BitVec.ofNat 8 resp, i3cData := data } } }

/-- A board request is carried out. [DESIGN CHOICE: log 39.] -/
def State.i3cRun (s : State) (b : Bytes) : State :=
  let s := { s with thr := { s.thr with ports := { s.thr.ports with i3cWait := none } } }
  if b.headD 0 = 0x01#8 then
    let x := s.mgmtRead .board (getLE b 1 6)
    x.2.2.i3cAnswer x.1 x.2.1
  else
    let x := s.mgmtWrite .board (getLE b 1 6) (BitVec.ofNat 64 (getLE b 7 8)) 0
    x.2.i3cAnswer x.1 0

/-- A private write of `n` bytes with first byte `first`: any other is discarded. -/
def i3cRequest (first : Byte) (n : Nat) (b : Bytes) (s : State) : State :=
  if s.thr.ports.i3cDyn.isNone then s
  else if b.length ≠ n || b.headD 0 ≠ first then s.i3cAnswer respMalformed 0
  else if s.gbRoom then s.i3cRun b
  else { s with thr := { s.thr with ports := { s.thr.ports with i3cWait := some b } } }

/-- I3C_READ_REQUEST: a private write of 0x01 and 6 address bytes. -/
def i3cReadRequest (b : Bytes) (s : State) : State := i3cRequest 0x01 7 b s

/-- I3C_WRITE_REQUEST: 0x02, 6 address bytes and 8 data bytes. -/
def i3cWriteRequest (b : Bytes) (s : State) : State := i3cRequest 0x02 15 b s

/-- I3C_PRIVATE_READ: RESP and data of the latest request leave the target; before it completes, a NACK. -/
def i3cPrivateRead (s : State) : State :=
  let p := s.thr.ports
  if p.i3cDyn.isNone then s
  else { s with thr := { s.thr with ports := { p with
    i3cOut := if p.i3cWait.isSome then [] else p.i3cResp :: leBytes 8 p.i3cData.toNat } } }

/-- I3C_SETDASA: the static address 0x2E takes a dynamic address. [PRESUMED: log 40.] -/
def i3cSetdasa (static dyn : BitVec 7) (s : State) : State :=
  if static ≠ 0x2E#7 || s.thr.ports.i3cDyn.isSome then s
  else { s with thr := { s.thr with ports := { s.thr.ports with i3cDyn := some dyn } } }

/-- I3C_ENTDAA: a target without a dynamic address takes one. [PRESUMED: log 40.] -/
def i3cEntdaa (dyn : BitVec 7) (s : State) : State :=
  if s.thr.ports.i3cDyn.isSome then s
  else { s with thr := { s.thr with ports := { s.thr.ports with i3cDyn := some dyn } } }

/-! ## The test port (R794) -/

def State.testAnswer (s : State) (resp : Nat) (data : BitVec 64) : State :=
  { s with thr := { s.thr with ports := { s.thr.ports with
    testResp := BitVec.ofNat 3 resp, testData := data, testBusy := false } } }

/-- The access that the test port's data register names is carried out. [DESIGN CHOICE: log 39.] -/
def State.testRun (s : State) : State :=
  let p := s.thr.ports
  if p.testOp = 1#2 then
    let x := s.mgmtRead .debug p.testAddr.toNat
    x.2.2.testAnswer x.1 x.2.1
  else
    let x := s.mgmtWrite .debug p.testAddr.toNat p.testData 0
    x.2.testAnswer x.1 p.testData

/-- An Update-DR with an access: only with DEBUG_ALLOW; while BUSY is 1 it starts nothing, and RESP is 5. -/
def testUpdate (op : BitVec 2) (addr : BitVec 48) (data : BitVec 64) (s : State) : State :=
  let p := s.thr.ports
  if !s.debugAllow then s
  else if p.testBusy then { s with thr := { s.thr with ports := { p with testResp := 5 } } }
  else
    let s := { s with thr := { s.thr with ports := { p with
      testAddr := addr, testOp := op, testData := data, testBusy := true } } }
    if s.gbRoom then s.testRun else s

/-- TEST_MGMT_READ. -/
def testMgmtRead (addr : BitVec 48) (s : State) : State := testUpdate 1 addr s.thr.ports.testData s

/-- TEST_MGMT_WRITE. -/
def testMgmtWrite (addr : BitVec 48) (data : BitVec 64) (s : State) : State := testUpdate 2 addr data s

/-- Accesses that waited for room in the Guestbook's queue are served (R731, R785). -/
def State.portsRun (s : State) : State :=
  let s := match s.thr.ports.i3cWait with
    | some b => if s.gbRoom then s.i3cRun b else s
    | none => s
  if s.thr.ports.testBusy && s.gbRoom then s.testRun else s

/-! ## The commands -/

def execMgmtRegWrite (o : Origin) (addr : BitVec 48) (data hw : BitVec 64) (s : State) :
    Host.Outcome State Fault Refusal := s.done (mgmtRegWrite o addr data hw s)
def execMgmtReadCapture (o : Origin) (addr : BitVec 48) (s : State) : Host.Outcome State Fault Refusal :=
  s.done (mgmtReadCapture o addr s)
def execGbReadMarkWrite (o : Origin) (data : BitVec 64) (s : State) : Host.Outcome State Fault Refusal :=
  s.done (gbReadMarkWrite o data s)
def execFaultReadMarkWrite (o : Origin) (data : BitVec 64) (s : State) : Host.Outcome State Fault Refusal :=
  s.done (faultReadMarkWrite o data s)
def execDebugEnter (o : Origin) (data : BitVec 64) (s : State) : Host.Outcome State Fault Refusal :=
  s.done (debugEnter o data s)
def execDebugLeave (o : Origin) (data : BitVec 64) (s : State) : Host.Outcome State Fault Refusal :=
  s.done (debugLeave o data s)
def execMirrorEnableWrite (o : Origin) (data : BitVec 64) (b : PortBringUp) (s : State) :
    Host.Outcome State Fault Refusal := s.done (mirrorEnableWrite o data b s)
def execTraceCtlWrite (o : Origin) (r : RoomId) (data : BitVec 64) (s : State) : Host.Outcome State Fault Refusal :=
  s.done (traceCtlWrite o r data s)
def execCollEntryStage (o : Origin) (p : PorchId) (hi : Bool) (data : BitVec 64) (s : State) :
    Host.Outcome State Fault Refusal := s.done (collEntryStage o p hi data s)
def execCollEntryCommit (o : Origin) (p : PorchId) (data : BitVec 64) (s : State) :
    Host.Outcome State Fault Refusal := s.done (collEntryCommit o p data s)
def execRankEntryWrite (o : Origin) (p : PorchId) (data : BitVec 64) (s : State) :
    Host.Outcome State Fault Refusal := s.done (rankEntryWrite o p data s)
def execRankCfgWrite (o : Origin) (p : PorchId) (hi : Bool) (data : BitVec 64) (s : State) :
    Host.Outcome State Fault Refusal := s.done (rankCfgWrite o p hi data s)
def execHostCfgEnable (o : Origin) (data : BitVec 64) (s : State) : Host.Outcome State Fault Refusal :=
  s.done (hostCfgEnable o data s)
def execHostCfgDisable (o : Origin) (data : BitVec 64) (s : State) : Host.Outcome State Fault Refusal :=
  s.done (hostCfgDisable o data s)
def execGoStop (o : Origin) (s : State) : Host.Outcome State Fault Refusal := s.done (goCmd 0 o s)
def execGoQuiesce (o : Origin) (s : State) : Host.Outcome State Fault Refusal := s.done (goCmd 1 o s)
def execGoFreeze (o : Origin) (s : State) : Host.Outcome State Fault Refusal := s.done (goCmd 2 o s)
def execI3cReadRequest (b : Bytes) (s : State) : Host.Outcome State Fault Refusal := s.done (i3cReadRequest b s)
def execI3cWriteRequest (b : Bytes) (s : State) : Host.Outcome State Fault Refusal := s.done (i3cWriteRequest b s)
def execI3cPrivateRead (s : State) : Host.Outcome State Fault Refusal := s.done (i3cPrivateRead s)
def execI3cSetdasa (static dyn : BitVec 7) (s : State) : Host.Outcome State Fault Refusal := s.done (i3cSetdasa static dyn s)
def execI3cEntdaa (dyn : BitVec 7) (s : State) : Host.Outcome State Fault Refusal := s.done (i3cEntdaa dyn s)
def execTestMgmtRead (addr : BitVec 48) (s : State) : Host.Outcome State Fault Refusal := s.done (testMgmtRead addr s)
def execTestMgmtWrite (addr : BitVec 48) (data : BitVec 64) (s : State) : Host.Outcome State Fault Refusal :=
  s.done (testMgmtWrite addr data s)

end Sys2Proof.Machine
end

