-- ==== Sys2Proof/Machine/Stairwell.lean ====
section
/-! DEFINITION. The Stairwell messages as the Threshold takes them (R589, R592, R629 to R635, R796 to R810), and credit
probes (R561, R562, R801). -/

namespace Sys2Proof.Machine

/-! ## Receipt (R625, R797, R798, R803, R812) -/

/-- A message that reached this Threshold over the fabric, if it is the one of the row. -/
def State.stwArrived (s : State) (sop : Nat) (m : StwMsg) : Option Pkt :=
  s.thr.stw.inbox.find? fun k =>
    pktSrank k.hdr == m.src && getLE k.data 0 1 == sop && getLE k.data 2 2 == m.seq.toNat && bit (pktArg k.hdr) 0 == m.bcast

/-- What the receipt of a message asks for: its operation, the right of its origin, the command of its STW record. -/
structure StwKind where
  sop   : Nat
  right : Option Nat
  cmd   : Option Nat
  deriving Repr

/-- A delivered message: it is counted, discarded (R798), forwarded when it is a broadcast (R625; `fwd` is A as forwarded),
recorded (R803), and its effect taken when its origin has the right. It waits while its record could not be queued (R731). [DESIGN CHOICE: log 45; DESIGN CHOICE: log 46.] -/
def stwDeliver (k : StwKind) (m : StwMsg) (fwd : BitVec 64) (eff : State → State) (s : State) : State :=
  if !s.gbRoom then s
  else
    let pkt := s.stwArrived k.sop m
    let w := s.thr.stw
    let w := { w with
      received := satAdd w.received 1
      inbox := match pkt with
        | some p => delFirst (fun q => decide (q = p)) w.inbox
        | none => w.inbox }
    let s := { s with thr := { s.thr with stw := w } }
    if !((s.porch 0).rankOk m.src.toNat) then { s with thr := { s.thr with stw := { w with discard := true } } }
    else
      let body := stwBody k.sop m.rtm m.seq fwd.toNat m.b.toNat m.c.toNat m.data
      let s := match pkt with
        | some p => if m.bcast then stwForward p body s else s
        | none => s
      let s := match k.cmd with
        | some c => s.stwRec m.src c
        | none => s
      match k.right with
      | some r => if s.stwMay m.src r then eff s
        else (s.deny 3 m.src.toNat 4 m.src.toNat r 0).stwRespond m.src k.sop m.seq respDenied 0 []
      | none => eff s

def stwStop (m : StwMsg) (s : State) : State :=
  stwDeliver { sop := 0x01, right := some rStop, cmd := some 0 } m m.a (stwStopEff m.src m.seq) s

def stwQuiesce (m : StwMsg) (s : State) : State :=
  stwDeliver { sop := 0x02, right := some rStop, cmd := some 1 } m m.a (stwPendEff 1 m.src m.seq m.a) s

def stwFreeze (m : StwMsg) (s : State) : State :=
  stwDeliver { sop := 0x03, right := some rStop, cmd := some 2 } m m.a (stwPendEff 2 m.src m.seq m.a) s

/-! ## START (R631) -/

/-- The effect of START: T0, START_RC, the seed and RT_MODE, or START_LATE. [DEDUCED: log 48.] -/
def startEff (src : BitVec 12) (seq : BitVec 16) (rtm : Bool) (t0 startRc seed : BitVec 64) (s : State) : State :=
  if s.job.js ≠ .loaded then s.stwRespond src 4 seq respState 0 []
  else if startRc < s.thr.clk.jclk then
    (s.raise 0x7009 1 5 0 0 [startRc, s.thr.clk.jclk]).stwRespond src 4 seq respState 0 []
  else
    ({ s with job := { s.job with
        t0 := t0, startRc := startRc, seed := seed, startRt := rtm, startSet := true } }).stwRespond src 4 seq respOk 0 []

def stwStart (m : StwMsg) (s : State) : State :=
  stwDeliver { sop := 0x04, right := some rStart, cmd := some 3 } m m.a (startEff m.src m.seq m.rtm m.a m.b m.c) s

/-! ## ALIGN and tick checks (R629, R630, R632 to R635) -/

/-- The two results of an estimate in 1/64 rc: the rounded count and RESIDUAL. [DEDUCED: log 47.] -/
def alignOf (est : Nat) : Nat × Int :=
  let n := (est + 32) / 64
  (n, (est : Int) - 64 * (n : Int))

/-- Is the job one whose packages move their own boundaries (R635)? -/
def State.throughput (s : State) : Bool := s.job.js == .running && !s.job.rt

/-- What ALIGN does with an estimate (R629, R630, R635). [DEDUCED: log 47.] -/
def alignEff (est : Nat) (s : State) : State :=
  let x := alignOf est
  let good := decide (x.2.natAbs ≤ 19)
  let k := s.thr.clk
  let delta := (BitVec.ofNat 64 x.1 - (k.jclk + 1)).toNat
  let k := { k with jclkSet := some (BitVec.ofNat 64 x.1), residual := BitVec.ofInt 8 x.2, aligned := good,
                    alignFail := k.alignFail || (!good && !s.throughput) }
  let s := { s with thr := { s.thr with clk := k } }
  if !s.throughput then
    if good then s else s.raise 0x7008 1 5 0 0 [BitVec.ofNat 64 (unsigned x.2 8)]
  else if !good then s.announceOut
  else if k.outOfStep && k.refOk then s.announceIn delta
  else s

/-- [DEDUCED: log 47.] -/
def stwAlign (m : StwMsg) (port : PortId) (s : State) : State :=
  let d := ((s.porch (porchOf port)).port (portIn port)).delay
  let acc := m.b.toNat + d.toNat
  stwDeliver { sop := 0x05, right := some rStart, cmd := none } { m with b := BitVec.ofNat 64 acc } m.a
    (alignEff (64 * m.a.toNat + acc)) s

/-- The root's ALIGN (R635): the broadcast and its own local delivery. [DEDUCED: log 47.] -/
def alignSend (s : State) : State :=
  alignEff (64 * s.thr.clk.jclk.toNat) (s.stwBroadcast 0x05 false s.thr.clk.jclk.toNat 0 0).2

/-- THRESH_JCLK at the latest boundary, and at the next one. -/
def State.jclkLast (s : State) : Nat := s.thr.clk.jclk.toNat - (s.rc - s.job.lastBound)
def State.jclkNext (s : State) : Nat := s.thr.clk.jclk.toNat + (s.job.bound - s.rc)

/-- What a tick check with the root's THRESH_TICK and THRESH_JCLK does (R632, R634). [DEDUCED: log 47.] -/
def tickCheckEff (tick jclk : BitVec 64) (s : State) : State :=
  let k := s.thr.clk
  let p := max s.tickRc 1
  if !(s.job.js == .running && s.job.rt) || k.tickSet.isSome then s
  else if k.outOfStep && k.refOk then
    let delta := (((jclk.toNat : Int) - (s.jclkNext : Int)) % (p : Int)).toNat
    let newAt := s.jclkNext + delta
    let count := (tick.toNat : Int) + ((newAt : Int) - (jclk.toNat : Int)) / (p : Int)
    { s with
      job := { s.job with bound := s.job.bound + delta }
      thr := { s.thr with clk := { k with tickSet := some (BitVec.ofInt 64 count), delta := delta } } }
  else if (s.jclkLast : Int) = (jclk.toNat : Int) + ((s.job.tick.toNat : Int) - (tick.toNat : Int)) * (p : Int) then
    { s with thr := { s.thr with clk := { k with checks := k.checks + 1 } } }
  else if k.outOfStep then s
  else s.announceOut

def stwTickCheck (m : StwMsg) (s : State) : State :=
  stwDeliver { sop := 0x06, right := some rStart, cmd := none } m m.a (tickCheckEff m.a m.b) s

/-- The root's tick check at a boundary (R632). -/
def tickCheckSend (s : State) : State :=
  tickCheckEff s.job.tick s.thr.clk.jclk (s.stwBroadcast 0x06 false s.job.tick.toNat s.thr.clk.jclk.toNat 0).2

/-- OUT_OF_STEP of a peer (R633). -/
def stwOutOfStep (m : StwMsg) (s : State) : State :=
  stwDeliver { sop := 0x07, right := none, cmd := some 4 } m m.a
    (fun s => (s.setOos m.src true).raise 0x700A 0 5 0 0 [m.src.zeroExtend 64]) s

def stwInStep (m : StwMsg) (s : State) : State :=
  stwDeliver { sop := 0x08, right := none, cmd := some 5 } m m.a (fun s => s.setOos m.src false) s

/-- FAULTED of a peer (R744): PEER_FAULTED, which takes effect at the next boundary. -/
def stwFaulted (m : StwMsg) (s : State) : State :=
  stwDeliver { sop := 0x09, right := none, cmd := none } m m.a (fun s =>
    let s := s.raise 0x700E 1 5 0 0 [m.src.zeroExtend 64, m.a]
    match s.job.js with
    | .loaded | .running | .draining | .done =>
      if s.thr.stw.peer.isSome then s
      else { s with thr := { s.thr with stw := { s.thr.stw with peer := some (m.src, m.a.extractLsb' 0 16) } } }
    | _ => s) s

/-! ## The drain check (R592) -/

/-- INJECTED and EJECTED of both Porches. -/
def State.totals (s : State) : BitVec 64 × BitVec 64 :=
  ((s.porch 0).injected + (s.porch 1).injected, (s.porch 0).ejected + (s.porch 1).ejected)

def stwDrainQuery (m : StwMsg) (s : State) : State :=
  stwDeliver { sop := 0x0A, right := some rRankMap, cmd := none } m m.a (fun s =>
    if m.src = s.ownRank then s
    else (s.stwUnicast m.src 0x0B s.totals.1.toNat s.totals.2.toNat 0 []).2) s

/-- The ranks of the job. -/
def Porch.ranks (x : Porch) : List Nat := (List.range x.nranks).filter x.rankOk

/-- A report joins the present collection; the last one ends it. -/
def stwDrainReport (m : StwMsg) (s : State) : State :=
  stwDeliver { sop := 0x0B, right := none, cmd := none } m m.a (fun s =>
    let w := s.thr.stw
    if !w.draining || w.reports.any (fun r => r.1 == m.src) then s
    else
      let reps := w.reports ++ [(m.src, m.a, m.b)]
      let full := decide (reps.length ≥ ((s.porch 0).ranks).length)
      { s with thr := { s.thr with stw := { w with reports := reps, drainAt := if full then s.rc + 1000 else w.drainAt } } }) s

/-- A collection begins: the query, and the root's own report. -/
def State.collect (s : State) (former : Option (BitVec 64 × BitVec 64)) : State :=
  let s := (s.stwBroadcast 0x0A false 0 0 0).2
  { s with thr := { s.thr with stw := { s.thr.stw with
      draining := true, former := former, reports := [(s.ownRank, s.totals)], drainAt := 0 } } }

/-- MAP_OPEN is set or cleared in both Porches, and recorded (R592, R725). -/
def State.setMapOpen (s : State) (o : Origin) (v : Bool) : State :=
  let put (x : Porch) : Porch := { x with cfg := setField x.cfg 69 1 (b2n v) }
  (s.bothPorches put).rankRec o (if v then 3 else 4) 0 0

/-- Are the router, hold and back-stair buffers of a Porch empty (R592)? -/
def Porch.quiet (x : Porch) : Bool :=
  x.inq.isEmpty && x.hold.isEmpty && x.bridge.toList.all (·.isEmpty) && x.returns.isEmpty && x.resv.isEmpty &&
    x.ports.toList.all fun q => q.bsOut.toList.all (·.isEmpty) && q.bsIn.toList.all (·.isEmpty)

/-- MAP_DRAIN_CHECK: with one rank the check is local; otherwise the root begins a collection, repeats it 1,000 rc after
the first has come together, and opens the map when S = E = S' = E'. -/
def mapDrainCheck (s : State) : State :=
  let x := s.porch 0
  let w := s.thr.stw
  if s.preBoot || x.mapOpen || !s.gbRoom then s
  else if x.nranks = 1 then
    if s.totals.1 = s.totals.2 && x.quiet && (s.porch 1).quiet then s.setMapOpen .self true else s
  else if s.ownRank ≠ x.root then s
  else if !w.draining then s.collect none
  else if w.reports.length < x.ranks.length || decide (s.rc < w.drainAt) then s
  else
    let inj := w.reports.foldl (fun a r => a + r.2.1) 0#64
    let ej := w.reports.foldl (fun a r => a + r.2.2) 0#64
    if w.former = some (inj, ej) && inj == ej then
      let s := { s with thr := { s.thr with stw := { w with draining := false, former := none, reports := [] } } }
      (s.stwBroadcast 0x0C false 0 0 0).2.setMapOpen .self true
    else s.collect (some (inj, ej))

def stwMapOpen (m : StwMsg) (s : State) : State :=
  stwDeliver { sop := 0x0C, right := some rRankMap, cmd := none } m m.a
    (fun s => (s.setMapOpen (.rank m.src) true).stwRespond m.src 0x0C m.seq respOk 0 []) s

/-- MAP_CLOSE; with the package's own rank as its origin it is the root's closing message, which leaves here (R592). -/
def stwMapClose (m : StwMsg) (s : State) : State :=
  if m.src = s.ownRank then
    if !s.gbRoom || !((s.porch 0).mapOpen) then s else (s.stwBroadcast 0x0D false 0 0 0).2.setMapOpen .self false
  else stwDeliver { sop := 0x0D, right := some rRankMap, cmd := none } m m.a
    (fun s => ((if (s.porch 0).mapOpen then s.setMapOpen (.rank m.src) false else s)).stwRespond m.src 0x0D m.seq respOk 0 []) s

/-! ## State and management access from other packages (R799, R800) -/

/-- The state record of R800. -/
def State.stateRecord (s : State) : Bytes :=
  packBytes 32 [(0, 8, s.job.js.code), (8, 8, s.job.smode.toNat), (16, 1, b2n s.job.rt), (17, 1, b2n s.job.frozen),
    (18, 1, b2n s.thr.clk.outOfStep), (19, 1, b2n s.flt.held), (32, 16, s.flt.lastCode.toNat), (64, 64, s.job.tick.toNat),
    (128, 64, s.job.stick.toNat), (192, 64, match s.thr.load.bin with | some b => b.imageId.toNat | none => 0)]

def stwStateRead (m : StwMsg) (s : State) : State :=
  stwDeliver { sop := 0x0E, right := some rMgmtRead, cmd := none } m m.a
    (fun s => s.stwRespond m.src 0x0E m.seq respOk 0 s.stateRecord) s

/-- `n` reads in ascending address order: the first response other than OK, the words, the state. [DESIGN CHOICE: log 41.] -/
def State.readWords (s : State) (o : Origin) (addr n : Nat) : Nat × Bytes × State :=
  (List.range n).foldl (fun (a : Nat × Bytes × State) i =>
    let x := a.2.2.mgmtRead o (addr + 8 * i)
    (if a.1 = respOk then x.1 else a.1, a.2.1 ++ leBytes 8 x.2.1.toNat, x.2.2)) (respOk, [], s)

/-- [DESIGN CHOICE: log 41.] -/
def stwMgmtRead (m : StwMsg) (s : State) : State :=
  stwDeliver { sop := 0x0F, right := none, cmd := none } m m.a (fun s =>
    let n := m.b.toNat
    if n = 0 || n > 28 then s.stwRespond m.src 0x0F m.seq respUnmapped 0 []
    else
      let x := s.readWords (.rank m.src) m.a.toNat n
      x.2.2.stwRespond m.src 0x0F m.seq x.1 0 x.2.1) s

def stwMgmtWrite (m : StwMsg) (s : State) : State :=
  stwDeliver { sop := 0x10, right := none, cmd := none } m m.a (fun s =>
    let x := s.mgmtWrite (.rank m.src) m.a.toNat m.b 0
    x.2.stwRespond m.src 0x10 m.seq x.1 0 []) s

/-! ## Credit probes (R561, R562, R801) -/

/-- The channels for which a Room waits for credit, with the tags of the commands that wait. -/
def Room.creditWaits (rm : Room) : List (BitVec 16 × Nat) :=
  rm.frz.filterMap fun f => match f with
    | .credit t c => some (t, c)
    | _ => none

/-- The tag with which a Room waits for credit on a channel to a rank and Room: the deadlock of R562. -/
def State.waitsFor (s : State) (r : RoomId) (rank : BitVec 12) (room : Nat) : Option (BitVec 16) :=
  let rm := s.room r
  (rm.creditWaits.find? fun w => match rm.comm.sends[w.2]? with
    | some ch => ch.dests.any fun d => (if ch.tgt = 0 then s.ownRank else d.rank) == rank && d.room.toNat == room
    | none => false).map (·.1)

/-- MAILSLOT_DEADLOCK of a Room, which stands in place of FREEZE_TIMEOUT (R357). -/
def State.deadlock (s : State) (r : RoomId) (tag : BitVec 16) (rank : BitVec 12) (room : Nat) (otherTag : BitVec 16) : State :=
  let s := s.modWing (wingOf r) fun g => { g with frzRep := true }
  s.report { code := 0x6017#16, cls := 1#2, lroom := BitVec.ofNat 7 r.val, wing := BitVec.ofNat 2 (wingOf r).val, src := 5#4,
             tag := tag, body := [rank.zeroExtend 64, BitVec.ofNat 64 room, otherTag.zeroExtend 64], lost := false }

/-- A probe to one destination of a channel. A PROBE's number is kept with its two Rooms until its RESPONSE. [DESIGN CHOICE: log 86.] -/
def probeDest (r : RoomId) (tag : BitVec 16) (mslot : Nat) (rank : BitVec 12) (room : Nat) (s : State) : State :=
  if rank = s.ownRank then
    let d := roomIdOf room
    if wingOf d = wingOf r then s.deadlock r tag rank room 0
    else match s.waitsFor d rank r.val with
      | some t => s.deadlock r tag rank room t
      | none => s
  else
    let x := s.stwUnicast rank 0x11 (pack [(0, 7, room), (8, 7, r.val), (16, 16, tag.toNat), (32, 2, mslot)]) 0 0 []
    { x.2 with thr := { x.2.thr with stw := { x.2.thr.stw with
        probes := x.2.thr.stw.probes ++ [(x.1, r.val + 128 * room)] } } }

/-- CREDIT_PROBE. [DESIGN CHOICE: log 86.] -/
def creditProbe (r : RoomId) (s : State) : State :=
  let rm := s.room r
  if rm.creditWaits.isEmpty || decide (s.rc < rm.probeAt + s.mailWatch) then s
  else
    let s := s.modRoom r fun rm => { rm with probeAt := s.rc }
    rm.creditWaits.foldl (fun s w => match rm.comm.sends[w.2]? with
      | some ch => ch.dests.foldl (fun s d =>
          probeDest r w.1 ch.mslot (if ch.tgt = 0 then s.ownRank else d.rank) d.room.toNat s) s
      | none => s) s

/-- PROBE of another rank: the answer of R801, and this side's MAILSLOT_DEADLOCK. [DESIGN CHOICE: log 86.] -/
def stwProbe (m : StwMsg) (s : State) : State :=
  stwDeliver { sop := 0x11, right := none, cmd := none } m m.a (fun s =>
    let d := roomIdOf (field m.a 0 7)
    let room := field m.a 8 7
    match s.waitsFor d m.src room with
    | some t => (s.deadlock d t m.src room (m.a.extractLsb' 16 16)).stwRespond m.src 0x11 m.seq respOk
        (1 + 2 ^ 16 * t.toNat) []
    | none => s.stwRespond m.src 0x11 m.seq respOk 0 []) s

/-- RESPONSE: counted for the latest broadcast (R812), and the answer to a probe (R801). -/
def stwResponse (m : StwMsg) (s : State) : State :=
  stwDeliver { sop := 0x12, right := none, cmd := none } m m.a (fun s =>
    let sop := field m.a 0 8
    let seq := m.a.extractLsb' 8 16
    if sop ≠ 0x11 then s.stwCount sop seq (field m.a 24 3)
    else match s.thr.stw.probes.find? fun p => p.1 == seq with
      | none => s
      | some p =>
        let s := { s with thr := { s.thr with stw := { s.thr.stw with
          probes := delFirst (fun q => q.1 == seq) s.thr.stw.probes } } }
        let r := roomIdOf (p.2 % 128)
        let tag := ((s.room r).creditWaits.head?.map (·.1)).getD 0
        if bit m.b 0 then s.deadlock r tag m.src (p.2 / 128) (m.b.extractLsb' 16 16) else s) s

/-! ## The commands -/

def execStwStop (m : StwMsg) (s : State) : Host.Outcome State Fault Refusal := s.done (stwStop m s)
def execStwQuiesce (m : StwMsg) (s : State) : Host.Outcome State Fault Refusal := s.done (stwQuiesce m s)
def execStwFreeze (m : StwMsg) (s : State) : Host.Outcome State Fault Refusal := s.done (stwFreeze m s)
def execStwStart (m : StwMsg) (s : State) : Host.Outcome State Fault Refusal := s.done (stwStart m s)
def execStwAlign (m : StwMsg) (port : PortId) (s : State) : Host.Outcome State Fault Refusal := s.done (stwAlign m port s)
def execStwTickCheck (m : StwMsg) (s : State) : Host.Outcome State Fault Refusal := s.done (stwTickCheck m s)
def execStwOutOfStep (m : StwMsg) (s : State) : Host.Outcome State Fault Refusal := s.done (stwOutOfStep m s)
def execStwInStep (m : StwMsg) (s : State) : Host.Outcome State Fault Refusal := s.done (stwInStep m s)
def execStwFaulted (m : StwMsg) (s : State) : Host.Outcome State Fault Refusal := s.done (stwFaulted m s)
def execStwDrainQuery (m : StwMsg) (s : State) : Host.Outcome State Fault Refusal := s.done (stwDrainQuery m s)
def execStwDrainReport (m : StwMsg) (s : State) : Host.Outcome State Fault Refusal := s.done (stwDrainReport m s)
def execMapDrainCheck (s : State) : Host.Outcome State Fault Refusal := s.done (mapDrainCheck s)
def execStwMapOpen (m : StwMsg) (s : State) : Host.Outcome State Fault Refusal := s.done (stwMapOpen m s)
def execStwMapClose (m : StwMsg) (s : State) : Host.Outcome State Fault Refusal := s.done (stwMapClose m s)
def execStwStateRead (m : StwMsg) (s : State) : Host.Outcome State Fault Refusal := s.done (stwStateRead m s)
def execStwMgmtRead (m : StwMsg) (s : State) : Host.Outcome State Fault Refusal := s.done (stwMgmtRead m s)
def execStwMgmtWrite (m : StwMsg) (s : State) : Host.Outcome State Fault Refusal := s.done (stwMgmtWrite m s)
def execStwProbe (m : StwMsg) (s : State) : Host.Outcome State Fault Refusal := s.done (stwProbe m s)
def execStwResponse (m : StwMsg) (s : State) : Host.Outcome State Fault Refusal := s.done (stwResponse m s)
def execCreditProbe (r : RoomId) (s : State) : Host.Outcome State Fault Refusal := s.done (creditProbe r s)

end Sys2Proof.Machine
end

