-- ==== Sys2Proof/Machine/Palbo.lean ====
section
/-! DEFINITION. The Palbo link (chapter 13): responses, violations, retraining and fencing, the Doorplate, and companion
access to device memory and the management space. -/

namespace Sys2Proof.Machine

/-! ## Violations, retraining (R656, R686, R687) -/

/-- Does the link carry messages? -/
def State.palUp (s : State) : Bool := s.thr.pwr.palbo && s.pal.live && !s.pal.fenced

/-- The link retrains (R620, R656, R687): the count of violations restarts. -/
def palRetrain (s : State) : State :=
  let p := s.pal
  let s := { s with pal := { p with
    live := false, retraining := true, retrains := satAdd p.retrains 1, retrainAt := p.retrainAt ++ [s.rc], replayAt := [],
    violSince := 0, downSince := s.rc } }
  s.raise 0x8002 0 4 0 0 [p.replays.zeroExtend 64, p.violSince.zeroExtend 64]

/-- A violation of the companion (R686, R687, R690): the flags, PALBO_VIOLATION with the offending header, and a retrain at
the 16th since the last one. [DESIGN CHOICE: log 56.] -/
def palViol (code : Nat) (hdr : BitVec 128) (s : State) : State :=
  let p := s.pal
  let n := satAdd p.violSince 1
  let s := { s with pal := { p with viol := true, lastCode := BitVec.ofNat 8 code, violSince := n } }
  let s := s.raise 0x8001 0 4 0 0 [BitVec.ofNat 64 code, hdr.extractLsb' 0 64, hdr.extractLsb' 64 64]
  if n.toNat ≥ 16 then palRetrain s else s

/-- The header of a companion message as the rows give it (R653). -/
def compHdr (op : Nat) (h : PalboHdr) (addr : Nat) (multi : Bool) (mask : Nat) : BitVec 128 :=
  setField (setField (flitHdr op h.rid.toNat 0 addr 0 multi h.poison) 17 1 (b2n h.retried)) 96 8 mask

/-- Flits of the companion have arrived in sequence (R656). -/
def Palbo.took (p : Palbo) (n : Nat) : Palbo := { p with expect := p.expect + BitVec.ofNat 8 n, nak := false }

/-! ## Requests of the device end (R657, R661, R662, R686 code 0x07) -/

/-- The 256 bytes of a fetched line have come. -/
def fetchDone (id part : Nat) (data : Bytes) (poison retried : Bool) (s : State) : State :=
  s.modReq id fun q =>
    let left := q.flits.filter (· != part)
    { q with
      data := (indexed q.data).map fun x =>
        if x.1 = part then (slice data 0 256, if poison then BitVec.allOnes 32 else 0) else x.2
      flits := left, retried := q.retried || retried, phase := if left.isEmpty then .served else q.phase }

/-- Is a line of a report still to be acknowledged? -/
def Palbo.attesting (p : Palbo) (slot : Nat) (seq : BitVec 32) : Bool :=
  p.reqs.any (fun q => decide (q.use = .attest slot seq)) || p.waiting.any (fun m => decide (m.use = some (.attest slot seq)))

/-- A write of the device has completed, or has been dropped. -/
def writeDone (use : PUse) (retried : Bool) (s : State) : State :=
  match use with
  | .put id => s.modReq id fun q =>
      let left := q.flits.drop 1
      { q with flits := left, retried := q.retried || retried, phase := if left.isEmpty then .served else q.phase }
  | .engine n x =>
    let f (e : Engine) : Engine := { e with cur := e.cur.map fun u =>
      { u with cmps := u.cmps - 1, bits := u.bits ||| chargeOf retried false } }
    s.modCellar n fun k => if x then { k with xpose := f k.xpose } else { k with gs := f k.gs }
  | .attest slot seq => if s.pal.attesting slot seq then s else s.reply slot seq 7 0 2 0
  | _ => s

def State.dropPReq (s : State) (rid : BitVec 8) : State :=
  { s with pal := { s.pal with reqs := s.pal.reqs.filter fun q => q.rid != rid } }

/-- A request completes locally (R686 code 0x07): a read delivers poisoned data, a write is dropped and counted. -/
def localEnd (use : PUse) (op : Nat) (s : State) : State :=
  let s := { s with pal := { s.pal with localDone := s.pal.localDone + 1 } }
  match use with
  | .fetch id part => fetchDone id part [] true false s
  | .mon slot =>
    if op = 0x03 && !s.pal.fenced then s.palReq (.mon slot) 0x03 (s.pal.submit + 256 * slot - compBase) false [] false else s
  | u => writeDone u false { s with pal := { s.pal with dropped := satAdd s.pal.dropped 1 } }

/-- PALBO_DATA (R661): the answer to an RD or a MON_RD. [DESIGN CHOICE: log 56.] -/
def palboData (h : PalboHdr) (data : Bytes) (s : State) : State :=
  if !s.palUp then s
  else
    let s := { s with pal := s.pal.took (if data.length > 64 then 4 else 1) }
    match s.pal.reqs.find? fun q => q.rid == h.rid with
    | some q =>
      if q.op = 0x01 || q.op = 0x03 then
        let s := s.dropPReq h.rid
        let s := match q.use with
          | .fetch id part => fetchDone id part data h.poison h.retried s
          | _ => s
        s.palPump
      else palViol 3 (compHdr 0x20 h 0 false 0) s
    | none => palViol 3 (compHdr 0x20 h 0 false 0) s

/-- PALBO_CMP (R662): the completion of a WR_OWN or a MON_CLR. -/
def palboCmp (h : PalboHdr) (s : State) : State :=
  if !s.palUp then s
  else
    let s := { s with pal := s.pal.took 1 }
    match s.pal.reqs.find? fun q => q.rid == h.rid with
    | some q =>
      if q.op = 0x02 || q.op = 0x04 then (writeDone q.use h.retried (s.dropPReq h.rid)).palPump
      else palViol 3 (compHdr 0x21 h 0 false 0) s
    | none => palViol 3 (compHdr 0x21 h 0 false 0) s

/-- PALBO_RSP_TIMEOUT: a request unanswered for RSP_LIMIT_RC completes locally. -/
def palboRspTimeout (rid : BitVec 8) (s : State) : State :=
  match s.pal.reqs.find? fun q => q.rid == rid with
  | none => s
  | some q =>
    if s.rc < q.sentAt + s.rspLimit then s
    else (localEnd q.use q.op (palViol 7 (flitHdr q.op rid.toNat 0 q.addr 0 q.multi false) (s.dropPReq rid))).palPump

/-- PALBO_CREDIT_ADVERTISE (R658). -/
def palboCreditAdvertise (req mon : Nat) (s : State) : State :=
  if !s.palUp then s else ({ s with pal := { s.pal with reqCred := req, monCred := mon } }).palPump

/-! ## Replay and retraining (R656) -/

/-- Flits up to an acknowledged number leave the replay buffer. -/
def Palbo.acked (p : Palbo) (a : BitVec 8) : Palbo :=
  match p.unacked.findIdx? fun u => u.1 == a with
  | some i => { p with unacked := p.unacked.drop (i + 1) }
  | none => p

/-- Every flit not yet acknowledged is sent again with RETRIED set. -/
def Palbo.replay (p : Palbo) : Palbo :=
  { p with
    unacked := p.unacked.map fun u => (u.1, { u.2 with hdr := setField u.2.hdr 17 1 1 })
    replays := satAdd p.replays p.unacked.length }

/-- PALBO_FLIT_REPLAY: a flit that must be discarded is asked for again; a NAK replays, and the 64th replay within 100,000 rc
retrains the link. -/
def palboFlitReplay (aseq : BitVec 8) (nak bad : Bool) (s : State) : State :=
  if !s.palUp then s
  else if bad then { s with pal := { s.pal with nak := true } }
  else
    let p := s.pal.acked aseq
    if !nak then ({ s with pal := p }).palPump
    else
      let p := p.replay
      let times := p.replayAt.filter (fun t => decide (s.rc < t + 100000)) ++ [s.rc]
      let s := { s with pal := { p with replayAt := times } }
      if times.length ≥ 64 then palRetrain s else s.palPump

/-- Four retrains within 1,000,000,000 rc (R688). -/
def State.palTired (s : State) : Bool :=
  decide ((s.pal.retrainAt.filter fun t => decide (s.rc < t + 1000000000)).length ≥ 4)

/-- PALBO_RETRAINING_END: the link carries messages again; what the companion has not received is replayed. [DESIGN CHOICE: log 58.] -/
def palboRetrainingEnd (req mon : Nat) (aseq : BitVec 8) (s : State) : State :=
  if !s.thr.pwr.palbo || !s.pal.retraining || s.pal.fenced || s.palTired then s
  else
    let p := (s.pal.acked aseq).replay
    ({ s with pal := { p with live := true, retraining := false, reqCred := req, monCred := mon } }).palPump

/-- PALBO_FENCED (R688, R689): requests in flight and waiting complete locally; cards and the Doorplate stop; a job that needs
companion memory enters FAULTED. [DESIGN CHOICE: log 58.] -/
def palboFenced (s : State) : State :=
  let p := s.pal
  if !s.thr.pwr.palbo || p.fenced || !(s.palTired || (!p.live && decide (s.rc ≥ p.downSince + s.linkLost))) then s
  else
    let before := p.localDone
    let waits := p.waiting.filterMap fun m => m.use.map fun u => (u, m.op)
    let s := { s with pal := { p with
      fenced := true, live := false, retraining := false, reqs := [], waiting := [], plate := none, card := none,
      reread := none, armed := 0, comp := [] } }
    let s := ((p.reqs.map fun q => (q.use, q.op)) ++ waits).foldl (fun s u => localEnd u.1 u.2 s) s
    let needs := match s.thr.load.bin with
      | some b => b.cmpNeed != 0
      | none => false
    let hit := needs && (s.job.js == .loading || s.job.js == .running || s.job.js == .draining)
    s.raise 0x8003 (b2n hit) 4 0 0 [p.retrains.zeroExtend 64, BitVec.ofNat 64 (s.pal.localDone - before)]

/-! ## The Doorplate leaves (R684) -/

/-- Is a companion-bound Outlet line that the Doorplate must follow still without its CMP? [DESIGN CHOICE: log 57.] -/
def State.plateHeld (s : State) (mark : Nat) : Bool :=
  s.rooms.toList.any (fun rm => rm.out.buf.any fun d => d.tgt == 3 && decide (d.lat.toNat < mark)) ||
    s.pal.reqs.any (fun q => match q.use with
      | .outlet n => decide (n < mark)
      | _ => false) ||
    s.pal.waiting.any (fun m => match m.use with
      | some (.outlet n) => decide (n < mark)
      | _ => false)

/-- DOORPLATE_SEND. [DESIGN CHOICE: log 57.] -/
def doorplateSend (s : State) : State :=
  match s.pal.plate with
  | none => s
  | some d =>
    let blocked := s.pal.waiting.any fun m => m.use.isSome
    if !s.palUp || !s.pal.enabled || s.plateHeld d.mark || blocked || s.pal.freeRid.isNone || s.pal.reqCred == 0 then s
    else
      let s := { s with pal := { s.pal with plate := none, doorplates := satAdd s.pal.doorplates 1 } }
      s.palReq .doorplate 0x02 (s.pal.plateAddr - compBase) false d.image false

/-! ## Companion access (R666 to R669, R686, R792) -/

/-- A refused access (R666, R690, R691). -/
def State.palRefused (s : State) : State :=
  { s with pal := { s.pal with access := true, refused := satAdd s.pal.refused 1 } }

/-- The bytes of HBM, a Pantry window or neither that an access reaches (R666). -/
inductive CompTarget
  | hbm
  | pantry (r : RoomId) (off : Nat)
  | mgmt
  | none
  deriving DecidableEq, Repr

def State.compTarget (s : State) (addr : Nat) : CompTarget :=
  let sealed_ := match s.thr.load.bin with
    | some b => b.sealed_.contains (addr / pageSize)
    | Option.none => false
  if addr < hbmTop then (if s.preBoot || sealed_ then .none else .hbm)
  else if 0x010000000000 ≤ addr && decide (addr < 0x010006000000) then
    let r := roomIdOf ((addr - 0x010000000000) / 0x100000)
    let live := match s.job.js with
      | .loaded | .running | .draining | .done => true
      | _ => false
    if live && (s.room r).on then .pantry r (addr % 0x100000) else .none
  else if 0x020000000000 ≤ addr && decide (addr < 0x030000000000) then .mgmt
  else .none

/-- The violations of a request (R686): no credit, an identifier still outstanding, a misaligned address. [DESIGN CHOICE: log 56.] -/
def State.compBad (s : State) (h : PalboHdr) (addr : Nat) (multi : Bool) : Option Nat :=
  if s.pal.reqRet ≥ 256 then some 2
  else if s.pal.comp.contains h.rid then some 4
  else if addr % (if multi then 256 else 64) ≠ 0 then some 5
  else none

/-- An answer that leaves the outstanding requests as they are. -/
def State.palAnswer (s : State) (op : Nat) (rid : BitVec 8) (status : Nat) (multi : Bool) : State :=
  s.palPut { op := op, addr := 0, multi := multi, data := [], poison := false, use := none, rid := rid, status := status }

/-- Request flits arrive: their credits are to be returned. -/
def State.tookReq (s : State) (n : Nat) : State :=
  { s with pal := { s.pal.took n with reqRet := s.pal.reqRet + n } }

/-- Does a read of a Pantry window need no access, or may the Arrivals port make it now (R419, R420)? -/
def State.windowDue (s : State) (r : RoomId) (off : Nat) : Bool :=
  let rm := s.room r
  let b := bankOf (off / 256)
  decide (off ≥ panSize) || rm.bankDown b (s.cyc r) ||
    (s.portFree r && (rm.pan.readTurn || (s.arrCand r 0).isNone) && !(inMask (s.busyBanks r 0) b))

/-- A read of a Pantry window through the Arrivals port (R412, R419, R433): bytes, poison and the state. [DEDUCED: log 54.] -/
def readWindow (r : RoomId) (off len : Nat) (s : State) : Bytes × Bool × State :=
  if off ≥ panSize then (List.replicate len 0, false, s)
  else
    let rm := s.room r
    let line := off / 256
    if rm.bankDown (bankOf line) (s.cyc r) then (List.replicate len 0, false, s)
    else
      let bad := (sgetRange rm.pan.due (off / 8) (len / 8)).any (· == 1#1)
      let sbes := ((sgetRange rm.pan.sbe (off / 8) (len / 8)).filter (· == 1#1)).length
      let s1 := (s.usePort r 1 true).modRoom r fun rm => { rm with pan := rm.pan.addCorr sbes 0 line }
      let s1 := if bad then (s1.modRoom r fun rm => { rm with pan := rm.pan.setStatus 5 0 line }).raiseBare r fcPanDue 0
          [BitVec.ofNat 64 line] else s1
      (rm.bytesAt off len (s.cyc r), bad, s1)

/-- Are the 512 entries of a stack queue that requests of others than the Dumbwaiters may hold taken (R471)? -/
def State.porchFull (s : State) (n : Nat) : Bool :=
  decide (((s.stack n).queue.filter fun q => field q.src 0 4 != 1).length ≥ 512)

/-- C_RD of HBM enters its stack queue as a request of the Porch, and is answered when the stack serves it (R666, R472,
R473). [DEDUCED: log 54.] -/
def queueRead (rid : BitVec 8) (a len : Nat) (multi : Bool) (s : State) : State :=
  let n := stackOf a
  let i : QItem :=
    { req := none, ans := some (rid, multi), addr := a, n := len, writes := [], bad := [], refresh := s.extraOpen n,
      src := s.srcOf 4 0x7F 0 0 }
  let s : State := { s with pal := { s.pal with comp := s.pal.comp ++ [rid] } }
  s.modStack n fun k => { k with queue := k.queue ++ [i] }

/-- C_RD. [DEDUCED: log 54.] -/
def cRd (h : PalboHdr) (addr : BitVec 48) (multi : Bool) (s : State) : State :=
  let a := addr.toNat
  let len := if multi then 256 else 64
  if !s.palUp then s
  else match s.compBad h a multi with
    | some code => palViol code (compHdr 0x10 h a multi 0) ((s.tookReq (if code = 2 then 0 else 1)).palAnswer 0x20 h.rid 2 multi)
    | none =>
      let s1 := s.tookReq 1
      let zeros : Bytes := List.replicate len 0
      match s.compTarget a with
      | .none => (s1.palRefused).palResp 0x20 h.rid 1 0 multi zeros false
      | .mgmt =>
        if multi then s1.palResp 0x20 h.rid 2 0 true zeros false
        else if !s.gbRoom then s
        else
          let x := s1.readWords .companion a 8
          let t := if x.1 = respOk then x.2.2 else x.2.2.palRefused
          t.palResp 0x20 h.rid (if x.1 = respOk then 0 else 1) 0 false x.2.1 false
      | .hbm => if s.porchFull (stackOf a) then s else queueRead h.rid a len multi s1
      | .pantry r off => if !(s.windowDue r off) then s else
        let x := readWindow r off len s1
        x.2.2.palResp 0x20 h.rid 0 0 multi x.1 x.2.1

/-- The words of a message that its MASK writes: offset and bytes. [DEDUCED: log 55.] -/
def maskedWords (mask : BitVec 8) (flits : Nat) (data : Bytes) : List (Nat × Bytes) :=
  (List.range flits).flatMap fun f => (List.range 8).filterMap fun w =>
    if bit mask w then some (64 * f + 8 * w, slice data (64 * f + 8 * w) 8) else none

/-- C_WR to HBM: the masked words enter their stack queue, which acknowledges them (R667, R668, R474). -/
def writeHbmWords (a : Nat) (ws : List (Nat × Bytes)) (poison : Bool) (s : State) : State :=
  let n := stackOf a
  let bad := if poison then (ws.map fun w => (a + w.1) / 64).eraseDups else []
  s.modStack n fun k => { k with queue := k.queue ++ [
    { req := none, ans := none, addr := a, n := 256, writes := ws.map fun w => (a + w.1, w.2), bad := bad, refresh := s.extraOpen n,
      src := s.srcOf 4 0x7F 0 0 }] }

/-- C_WR to a Pantry window: one arrival (R425, R667); writes beyond the Pantry are discarded (R412). [DEDUCED: log 55.] -/
def writeWindow (h : PalboHdr) (r : RoomId) (off : Nat) (multi : Bool) (mask : BitVec 8) (data : Bytes) (s : State) : State :=
  if off ≥ panSize then s.palResp 0x21 h.rid 0 0 false [] false
  else
    let at0 := if multi then 0 else off % 256
    let ws := maskedWords mask 1 data
    let m : LineMask := if multi then fullMask else ws.foldl (fun m w => m ||| byteMask (at0 + w.1) 8) 0
    let body := if multi then slice data 0 256 else List.replicate at0 0 ++ slice data 0 (256 - at0)
    let words := (indicesOf 32 fun i => field m (64 * i) 64 != 0).foldl (fun (p : BitVec 32) i => p ||| (1#32 <<< i)) 0
    let a : Arr :=
      { kind := .comp h.rid, line := off / 256, data := body, mask := m, poison := if h.poison then words else 0,
        retried := h.retried, refresh := false, src := s.srcOf 4 0x7F 0 0, srank := 0, sroom := 0, fab := false,
        bs := false }
    ({ s with pal := { s.pal with comp := s.pal.comp ++ [h.rid] } }).modRoom r (·.arrive a)

/-- C_WR. [DEDUCED: log 55.] -/
def cWr (h : PalboHdr) (addr : BitVec 48) (multi : Bool) (mask : BitVec 8) (data : Bytes) (s : State) : State :=
  let a := addr.toNat
  let flits := if multi then 4 else 1
  if !s.palUp then s
  else match s.compBad h a multi with
    | some code => palViol code (compHdr 0x11 h a multi mask.toNat)
        ((s.tookReq (if code = 2 then 0 else flits)).palAnswer 0x21 h.rid 2 false)
    | none =>
      let s1 := s.tookReq flits
      match s.compTarget a with
      | .none => (s1.palRefused).palResp 0x21 h.rid 1 0 false [] false
      | .mgmt =>
        if multi then s1.palResp 0x21 h.rid 2 0 false [] false
        else if !s.gbRoom then s
        else if h.poison then (s1.palRefused).palResp 0x21 h.rid 1 0 false [] false
        else
          let x := (maskedWords mask 1 data).foldl (fun (x : Nat × State) w =>
            let y := x.2.mgmtWrite .companion (a + w.1) (BitVec.ofNat 64 (getLE w.2 0 8)) 0
            (if x.1 = respOk then y.1 else x.1, y.2)) (respOk, s1)
          let t := if x.1 = respOk then x.2 else x.2.palRefused
          t.palResp 0x21 h.rid (if x.1 = respOk then 0 else 1) 0 false [] false
      | .hbm => if s.porchFull (stackOf a) then s else (writeHbmWords a (maskedWords mask flits data) h.poison s1).palResp 0x21 h.rid 0 0 false [] false
      | .pantry r off => writeWindow h r off multi mask data s1

/-! ## The commands -/

def execPalboData (h : PalboHdr) (data : Bytes) (s : State) : Host.Outcome State Fault Refusal := s.done (palboData h data s)
def execPalboCmp (h : PalboHdr) (s : State) : Host.Outcome State Fault Refusal := s.done (palboCmp h s)
def execPalboCreditAdvertise (req mon : Nat) (s : State) : Host.Outcome State Fault Refusal :=
  s.done (palboCreditAdvertise req mon s)
def execPalboFlitReplay (aseq : BitVec 8) (nak bad : Bool) (s : State) : Host.Outcome State Fault Refusal :=
  s.done (palboFlitReplay aseq nak bad s)
def execPalboRspTimeout (rid : BitVec 8) (s : State) : Host.Outcome State Fault Refusal := s.done (palboRspTimeout rid s)
def execPalboFenced (s : State) : Host.Outcome State Fault Refusal := s.done (palboFenced s)
def execPalboRetrainingEnd (req mon : Nat) (aseq : BitVec 8) (s : State) : Host.Outcome State Fault Refusal :=
  s.done (palboRetrainingEnd req mon aseq s)
def execDoorplateSend (s : State) : Host.Outcome State Fault Refusal := s.done (doorplateSend s)
def execCRd (h : PalboHdr) (addr : BitVec 48) (multi : Bool) (s : State) : Host.Outcome State Fault Refusal :=
  s.done (cRd h addr multi s)
def execCWr (h : PalboHdr) (addr : BitVec 48) (multi : Bool) (mask : BitVec 8) (data : Bytes) (s : State) :
    Host.Outcome State Fault Refusal := s.done (cWr h addr multi mask data s)

end Sys2Proof.Machine
end

