-- ==== Sys2Proof/Machine/Cards.lean ====
section
/-! DEFINITION. Job Cards (R664, R673 to R680): their receipt and checks, and the action of every card but LOAD. -/

namespace Sys2Proof.Machine

/-! ## The card (R674, R677, R678) -/

/-- The fields of a card of slot `n`. -/
def cardOf (n : Nat) (bs : Bytes) : JobCard :=
  { slot := n, seq := BitVec.ofNat 32 (getLE bs 0 4), opc := BitVec.ofNat 8 (getLE bs 4 1),
    arg0 := BitVec.ofNat 64 (getLE bs 8 8), arg1 := BitVec.ofNat 64 (getLE bs 16 8),
    arg2 := BitVec.ofNat 64 (getLE bs 24 8), arg3 := BitVec.ofNat 256 (getLE bs 64 32) }

/-- Does the CRC of a card match (R674)? -/
def cardCrcOk (bs : Bytes) : Bool := (crc32c (slice bs 0 188)).toNat == getLE bs 188 4

/-- Is a reserved bit of a card set (R674)? [DEDUCED: log 50.] -/
def cardReserved (bs : Bytes) : Bool := getLE bs 5 3 != 0 || getLE bs 32 32 != 0 || getLE bs 96 92 != 0

/-- An address in the companion range (R468). -/
def inComp (a : Nat) : Bool := decide (compBase ≤ a) && decide (a < 0x070000000000)

/-- The field limits of a command (R677); an argument the command does not have is a reserved value. [DEDUCED: log 50.] -/
def JobCard.fieldsOk (c : JobCard) : Bool :=
  let a := c.arg0.toNat
  let b := c.arg1.toNat
  let d := c.arg2.toNat
  let none3 := c.arg3 == 0#256
  match c.opc.toNat with
  | 0 | 4 => a == 0 && b == 0 && d == 0 && none3
  | 1 => a % 256 == 0 && decide (a < hbmTop) && (b == 0 || (b % 4096 == 0 && inComp b)) && d % 4096 == 0 &&
      decide (b + d ≤ 0x070000000000) && none3
  | 2 => decide (b < 2) && none3
  | 3 => decide (a ≤ 2) && b == 0 && d == 0 && none3
  | 5 => decide (a ≤ 3) && b == 0 && d == 0 && none3
  | 6 => a % 16 == 0 && nbits b 1 7 == 0 && decide (b < 0x4000) && !(nbits b 0 1 == 1 && decide (nbits b 8 6 > 31)) &&
      d == 0 && none3
  | 7 => a % 4096 == 0 && inComp a && b == 0 && d == 0
  | _ => false

/-- Is a command legal in the present state (R678, R745)? -/
def State.cardLegal (s : State) (c : JobCard) : Bool :=
  if s.flt.held then c.opc == 0 || c.opc == 7
  else match c.opc.toNat, s.job.js with
    | 0, _ | 7, _ => true
    | 1, .configured | 5, .configured | 6, .configured | 6, .loading => true
    | 2, .loaded => true
    | 3, .running => true
    | 3, .loading | 3, .draining => c.arg0 == 0
    | 4, .loaded | 4, .done | 4, .faulted => true
    | _, _ => false

/-- RESULT of a reply with STATUS 5. -/
def State.stateResult (s : State) : Nat := if s.flt.held then 8 else s.job.js.code

/-! ## Receipt (R663, R676) -/

/-- A CARD record (R725). [DEDUCED: log 49.] -/
def State.cardRec (s : State) (c : JobCard) (status : Nat) : State :=
  s.gbPush 0x05 2 c.slot 1 (packBytes 10 [(0, 8, c.slot), (32, 32, c.seq.toNat), (64, 8, c.opc.toNat), (72, 8, status)])

/-- A card is rejected. -/
def State.cardReject (s : State) (c : JobCard) (status result : Nat) : State :=
  let keep := status == 1 || status == 2
  let p := s.pal
  let last := if h : c.slot < 64 then (if keep then p.last else p.last.set c.slot c.seq) else p.last
  let s := { s with pal := { p with last := last, rejected := satAdd p.rejected 1 } }
  (s.cardRec c status).reply c.slot c.seq c.opc.toNat status 2 result

/-- A card whose sequence number and CRC are right: STATUS 3 to 7, or it is accepted. -/
def State.cardJudge (s : State) (c : JobCard) (bs : Bytes) (peersReady : Bool) : State :=
  if cardReserved bs || !c.fieldsOk then s.cardReject c 3 0
  else if !(s.granted 0 c.slot (c.opc.toNat - 1)) && c.opc != 0 then
    (s.cardReject c 4 0).deny 2 c.slot 0 c.slot (c.opc.toNat - 1) 0
  else if !(s.cardLegal c) then s.cardReject c 5 s.stateResult
  else if c.opc = 2 && s.ownRank ≠ (s.porch 0).root then s.cardReject c 6 0
  else if c.opc = 2 && (s.porch 0).nranks > 1 && !peersReady then s.cardReject c 7 0
  else
    let p := s.pal
    let last := if h : c.slot < 64 then p.last.set c.slot c.seq else p.last
    ({ s with pal := { p with last := last, cards := satAdd p.cards 1, card := some c } }).cardRec c 0

/-- The procedure of R676 on the bytes of lines 0 to 2 of slot `n`. -/
def State.cardCheck (s : State) (n : Nat) (bs : Bytes) (peersReady : Bool) : State :=
  let c := cardOf n bs
  let last := s.pal.last.toList.getD n 0
  if c.seq = last then s
  else if c.seq ≠ last + 1 then s.cardReject c 1 0
  else if !(cardCrcOk bs) then
    { s with pal := { s.pal with reread := some (n, s.rc + 100), rereads := satAdd s.pal.rereads 1 } }
  else s.cardJudge c bs peersReady

/-- MON_HIT: MON_ACK; an unarmed monitor is a violation (R686 code 0x06), an armed one is armed again and its card read. The
cards of several slots are processed one at a time. -/
def monHit (n : Fin 64) (h : PalboHdr) (card : Bytes) (peersReady : Bool) (s : State) : State :=
  if !s.palUp || s.pal.card.isSome || s.pal.reread.isSome || !s.gbRoom then s
  else
    let s := { s with pal := { s.pal.took 1 with monRet := s.pal.monRet + 1 } }
    let s := s.palResp 0x09 h.rid 0 0 false [] false
    if !(bit s.pal.armed n.val) then palViol 6 (compHdr 0x08 h (s.pal.submit + 256 * n.val - compBase) false 0) s
    else s.cardCheck n.val card peersReady

/-- CARD_CRC_REREAD: the card as it reads after 100 rc. -/
def cardCrcReread (card : Bytes) (peersReady : Bool) (s : State) : State :=
  match s.pal.reread with
  | none => s
  | some (n, at0) =>
    if !s.palUp || decide (s.rc < at0) || !s.gbRoom then s
    else
      let s := { s with pal := { s.pal with reread := none } }
      let c := cardOf n card
      if cardCrcOk card then s.cardJudge c card peersReady else s.cardReject c 2 0

/-! ## Actions -/

/-- The accepted card, if it is the one that a row acts on and its records can be queued; it is taken. -/
def State.takeCard (s : State) (opc : Nat) (p : JobCard → Bool) (act : JobCard → State → State) : State :=
  match s.pal.card with
  | none => s
  | some c =>
    if c.opc.toNat ≠ opc || !(p c) || !s.gbRoom then s
    else act c { s with pal := { s.pal with card := none } }

/-- The one reply with PHASE 2. -/
def State.cardDone (s : State) (c : JobCard) (result : Nat := 0) : State := s.reply c.slot c.seq c.opc.toNat 0 2 result

/-- The reply with PHASE 1. -/
def State.cardBegun (s : State) (c : JobCard) : State := s.reply c.slot c.seq c.opc.toNat 0 1 0

/-- CARD_NOP. -/
def cardNop (s : State) : State := s.takeCard 0 (fun _ => true) fun c s => s.cardDone c

/-- CARD_START: the root broadcasts START and delivers it to itself (R631). [DEDUCED: log 48.] -/
def cardStart (s : State) : State := s.takeCard 2 (fun _ => true) fun c s =>
  let s := s.cardBegun c
  let rtm := bit c.arg1 0
  let startRc := s.thr.clk.jclk + BitVec.ofNat 64 s.startLead
  let x := s.stwBroadcast 0x04 rtm c.arg2.toNat startRc.toNat c.arg0.toNat
  let s := { x.2 with pal := { x.2.pal with starts := x.2.pal.starts ++ [c] } }
  startEff s.ownRank x.1 rtm c.arg2 startRc c.arg0 (s.stwRec s.ownRank 3)

/-- A STOP card of one KIND: the Threshold issues that command to the job. [DEDUCED: log 49.] -/
def stopCard (kind : Nat) (s : State) : State :=
  s.takeCard 3 (fun c => c.arg0 == BitVec.ofNat 64 kind) fun c s => (originate kind s).cardDone c

/-- CARD_STOP. -/
def cardStop (s : State) : State := stopCard 0 s

/-- CARD_QUIESCE. -/
def cardQuiesce (s : State) : State := stopCard 1 s

/-- CARD_FREEZE. -/
def cardFreeze (s : State) : State := stopCard 2 s

/-- CARD_UNLOAD (R144, R389, R509, R681). -/
def cardUnload (s : State) : State := s.takeCard 4 (fun _ => true) fun c s =>
  let s := (s.cardBegun c).freeJob
  let s := { s with thr := { s.thr with stw := { s.thr.stw with peer := none } } }
  let s := s.setState .configured 0x04
  (s.endStart 0 0).cardDone c

/-- CARD_MODE: the service mode, its record and the Doorplate. -/
def cardMode (s : State) : State := s.takeCard 5 (fun _ => true) fun c s =>
  let old := s.job.smode
  let new := c.arg0.extractLsb' 0 3
  let s := if old = new then s
    else (({ s with job := { s.job with smode := new } }).gbPush 0x04 2 c.slot 1
      [old.zeroExtend 8, new.zeroExtend 8, BitVec.ofNat 8 (b2n s.smoke.debug)]).doorplate
  s.cardDone c

/-- The bytes of a table at a device address: from HBM, or as the companion returns them; none where a line comes poisoned
or the address is in neither. -/
def State.tableBytes (s : State) (comp : SMap 8) (a len : Nat) : Option Bytes × State :=
  if a + len ≤ hbmTop then
    let m := s.hbmView
    let x := s.readLinesHbm m a len (s.srcOf 12 0x7F 0 0)
    (if x.1.any (·.2) then none else some (x.1.map (·.1)).flatten, x.2)
  else if inComp a && !s.pal.fenced then (some (sgetRange comp a len), s)
  else (none, s)

/-- A table at a device address is written into a slot (R145, R391): was it valid? -/
def State.tableCard (s : State) (comp : SMap 8) (a : Nat) (curve : Bool) (slot : Nat) : Bool × State :=
  let hd := s.tableBytes comp a (if curve then 32 else 16)
  match hd.1 with
  | none => (false, hd.2)
  | some h =>
    let len := if curve then 32 + 16 * 2 ^ recBits h 8 3 else ptabLen (recBits h 0 2)
    let x := s.tableBytes comp a len
    match x.1 with
    | none => (false, x.2)
    | some bs =>
      if curve then match parseCtab bs false with
        | some t => (true, x.2.writeCtab slot (some t) 0)
        | none => (false, x.2)
      else match parsePtab bs false with
        | some t => (true, x.2.writePtab slot (some t) 0)
        | none => (false, x.2)

/-- CARD_TABLE. [DEDUCED: log 50.] -/
def cardTable (comp : SMap 8) (s : State) : State := s.takeCard 6 (fun _ => true) fun c s =>
  let x := s.tableCard comp c.arg0.toNat (bit c.arg1 0) (field c.arg1 8 6)
  x.2.cardDone c (if x.1 then 0 else 0x0305)

/-- CARD_ATTEST: the ATTEST record follows the CARD record; the report leaves when it is appended (R717). -/
def cardAttest (s : State) : State := s.takeCard 7 (fun _ => true) fun c s =>
  let s := (s.cardBegun c).gbPush 0x0F 2 c.slot 1 (leBytes 32 c.arg3.toNat)
  { s with pal := { s.pal with attests := s.pal.attests ++ [c] } }

/-! ## The commands -/

def execMonHit (n : Fin 64) (h : PalboHdr) (card : Bytes) (peersReady : Bool) (s : State) :
    Host.Outcome State Fault Refusal := s.done (monHit n h card peersReady s)
def execCardCrcReread (card : Bytes) (peersReady : Bool) (s : State) : Host.Outcome State Fault Refusal :=
  s.done (cardCrcReread card peersReady s)
def execCardNop (s : State) : Host.Outcome State Fault Refusal := s.done (cardNop s)
def execCardStart (s : State) : Host.Outcome State Fault Refusal := s.done (cardStart s)
def execCardStop (s : State) : Host.Outcome State Fault Refusal := s.done (cardStop s)
def execCardQuiesce (s : State) : Host.Outcome State Fault Refusal := s.done (cardQuiesce s)
def execCardFreeze (s : State) : Host.Outcome State Fault Refusal := s.done (cardFreeze s)
def execCardUnload (s : State) : Host.Outcome State Fault Refusal := s.done (cardUnload s)
def execCardMode (s : State) : Host.Outcome State Fault Refusal := s.done (cardMode s)
def execCardTable (comp : SMap 8) (s : State) : Host.Outcome State Fault Refusal := s.done (cardTable comp s)
def execCardAttest (s : State) : Host.Outcome State Fault Refusal := s.done (cardAttest s)

end Sys2Proof.Machine
end

