-- ==== Sys2Proof/Machine/Chain.lean ====
section
/-! DEFINITION. VCHAIN (chapter 06): the step list, the groups and their timing, stores and row reductions. -/

namespace Sys2Proof.Machine

/-- The steps of a chain (R288): four to an entry from CDESC. -/
def Room.chainSteps (rm : Room) (cdesc n : Nat) : List (BitVec 64) :=
  (List.range n).map fun i => (rm.descOf (cdesc + i / 4)).extractLsb' (64 * (i % 4)) 64

/-- Is a step OP defined (R288)? -/
def stepOpOk (op : Nat) : Bool :=
  (decide (0x10 ≤ op) && decide (op ≤ 0x17)) || (decide (0x20 ≤ op) && decide (op ≤ 0x2A)) || op == 0x3C || op == 0x41

/-- Is an operand code defined (R289)? -/
def operandOk (n : Nat) : Bool := decide (n ≤ 0x0B) || decide (0x40 ≤ n)

/-- A step with a reserved OP or operand code (R295). [DEDUCED: log 78.] -/
def stepBad (st : BitVec 64) : Bool :=
  !(stepOpOk (field st 0 8)) || !(operandOk (field st 11 7)) || !(operandOk (field st 18 7)) || !(operandOk (field st 25 7))

/-- The fields of a VCHAIN (R287). -/
structure ChainCmd where
  idesc   : Nat
  pair    : Bool
  hslot   : Nat
  hrel    : Bool
  in1     : Bool
  odesc   : Nat
  reduce  : Bool
  rop     : Bool
  roomkey : Bool
  cdesc   : Nat
  nstep   : Nat
  purpose : BitVec 16
  itersc  : Nat
  rnd     : Nat
  sat     : Bool
  vr      : Nat
  idesc1  : Nat
  deriving DecidableEq, Repr, Inhabited

def chainOf (c : BitVec 128) : ChainCmd :=
  { idesc := field c 32 11, pair := bit c 43, hslot := field c 44 2, hrel := bit c 46, in1 := bit c 47,
    odesc := field c 48 11, reduce := bit c 59, rop := bit c 60, roomkey := bit c 61, cdesc := field c 64 11,
    nstep := field c 76 4 + 1, purpose := c.extractLsb' 80 16, itersc := field c 96 4, rnd := field c 100 2,
    sat := bit c 102, vr := field c 104 6, idesc1 := field c 112 11 }

/-- The number of groups of a chain (R266, R293): row pairs under ISRC 1. [DEDUCED: log 79.] -/
def chainGroups (pair : Bool) (t : Tensor) : Nat := if pair then cdiv t.yext 2 else groupCount t

/-- The largest line count of a tensor's groups. -/
def maxLines (bits : Nat) (t : Tensor) (pair : Bool) : Nat :=
  (List.range (chainGroups pair t)).foldl (fun m g => max m (segLines bits t (groupSegs pair t g)).length) 1

/-- The timing of a chain (R294). -/
structure ChainTime where
  groups : Nat
  p      : Nat
  occ    : Nat
  dur    : Nat
  deriving DecidableEq, Repr, Inhabited

def chainTime (rm : Room) (tabs : Tables) (profile : Nat) (c : BitVec 128) : ChainTime :=
  let k := chainOf c
  let t := tensorOf (rm.descOf k.idesc)
  let ok (i : Nat) : Bool := (rm.descErr tabs i 1 c).isNone
  let count (i : Nat) (use : Bool) : Nat :=
    let ti := tensorOf (rm.descOf i)
    if use && ok i && (fmtOf tabs.ptab ti.fmt).isSome then maxLines (bitsOf tabs ti.fmt) ti k.pair else 1
  let lin := count k.idesc (!k.pair)
  let l1 := count k.idesc1 k.in1
  let lout := count k.odesc (!k.reduce)
  let g := if ok k.idesc then chainGroups k.pair t else 1
  let p := max (max k.nstep lin) (max l1 lout)
  let lat := (rm.chainSteps k.cdesc k.nstep).foldl (fun a st => a + opLat profile (field st 0 8)) 0
  let din := if k.pair then 2 else decLat tabs t.fmt + lin - 1
  let dout := if k.reduce then 12 else 10 + lout - 1 + (if k.rnd = 2 then 6 else 0)
  let occ := din + g * p + lat
  { groups := g, p := p, occ := occ, dur := occ + dout }

/-- VEC_LAYOUT of the first group of a tensor that breaks R268. -/
def chainLayout (tabs : Tables) (idx : Nat) (t : Tensor) (pair : Bool) : Option (Nat × List (BitVec 64)) :=
  (List.range (chainGroups pair t)).findSome? fun g =>
    layoutErr idx g (segLines (bitsOf tabs t.fmt) t (groupSegs pair t g)).length

/-- DESC_RANGE of a tensor that a chain reads or writes whole. -/
def chainRange (tabs : Tables) (idx : Nat) (t : Tensor) (pair : Bool) : Option (Nat × List (BitVec 64)) :=
  (List.range (chainGroups pair t)).findSome? fun g =>
    rangeErr idx (segRanges (bitsOf tabs t.fmt) t (groupSegs pair t g))

/-- The faults of a VCHAIN in the order of R360, R295 and R359. -/
def chainErr (rm : Room) (tabs : Tables) (r : RoomId) (lrooms cyc : Nat) (c : BitVec 128) :
    Option (Nat × List (BitVec 64)) :=
  let k := chainOf c
  let d0 := rm.descOf k.idesc
  let d1 := rm.descOf k.idesc1
  let od := rm.descOf k.odesc
  let t := tensorOf d0
  let t1 := tensorOf d1
  let ot := tensorOf od
  let steps := rm.chainSteps k.cdesc k.nstep
  let entries := (List.range (cdiv k.nstep 4)).map (k.cdesc + ·)
  let opt (b : Bool) (e : Option (Nat × List (BitVec 64))) : Option (Nat × List (BitVec 64)) := if b then e else none
  firstErr [
    firstErr (entries.map rm.descEcc),
    rm.descErrs tabs ([(k.idesc, 1)] ++ (if k.in1 then [(k.idesc1, 1)] else []) ++
      (if k.reduce then [(k.odesc, 1)] else outDescs k.odesc od)) c,
    opt (!k.pair) (chainRange tabs k.idesc t false),
    opt k.in1 (chainRange tabs k.idesc1 t1 k.pair),
    opt (!k.reduce && (rm.routeFor od).tgt != 3) (chainRange tabs k.odesc ot k.pair),
    opt (!k.pair) (fmtErr tabs t.fmt t.smode k.rnd false),
    opt k.in1 (fmtErr tabs t1.fmt t1.smode k.rnd false),
    opt (!k.reduce) (storeFmtErr tabs ot k.rnd),
    opt (k.rnd = 3) (some (fcFormat, [BitVec.ofNat 64 ot.fmt, BitVec.ofNat 64 ot.smode, 3#64])),
    opt (field c 62 2 != 0 || bit c 75 || bit c 103 || field c 110 2 != 0 || field c 123 5 != 0 ||
        steps.any stepBad || t.xext != ot.xext || t.yext != ot.yext ||
        (k.in1 && (t.xext != t1.xext || t.yext != t1.yext)) ||
        (k.pair && (decide (t.xext > 128) || decide (t.yext > 128))) ||
        decide (k.cdesc + cdiv k.nstep 4 > 2048) || (!k.reduce && ot.saxis && ot.smode != 0))
      (some (fcVecField, cmdWords c)),
    opt (!k.pair) (chainLayout tabs k.idesc t false),
    opt k.in1 (chainLayout tabs k.idesc1 t1 k.pair),
    opt (!k.reduce) (chainLayout tabs k.odesc ot k.pair),
    (steps.find? fun st => field st 0 8 == 0x3C && (tabs.ctab.toList.getD (field st 32 5) none).isNone).map fun st =>
      (fcVecCurve, [BitVec.ofNat 64 (field st 32 5)]),
    opt (k.pair && rm.hatch.slotAt k.hslot cyc != 3) (some (hatchErr rm k.hslot)),
    opt (!k.reduce && ot.rte) (routeErr r lrooms ot.rdesc (rm.descOf ot.rdesc))]

/-- VCHAIN (R287 to R294). -/
def vchain (r : RoomId) (c : QCmd) (s : State) : State :=
  let rm := s.room r
  let at0 := s.cyc r
  let w := c.word
  let k := chainOf w
  let od := rm.descOf k.odesc
  let tm := chainTime rm s.tabs s.job.runProfile.toNat w
  let rt := if k.reduce then localRoute else rm.routeFor od
  let entries := (List.range (cdiv k.nstep 4)).map (k.cdesc + ·)
  if !(s.vecReady r c 8) then s
  else
    let started := s.beginVec r c tm.occ (storeDur r rt tm.dur)
    if !c.pred then started.skipEcc r w ([k.idesc, k.odesc] ++ entries ++ (if k.in1 then [k.idesc1] else []))
    else match chainErr rm s.tabs r s.job.lrooms at0 w with
      | some e => started.vecOrDesc r w e
      | none =>
        let d0 := rm.descOf k.idesc
        let d1 := rm.descOf k.idesc1
        let lines (d : BitVec 256) (g : Nat) : List (Nat × Nat) :=
          let t := tensorOf d
          (indexed (segLines (bitsOf s.tabs t.fmt) t (groupSegs k.pair t g))).map fun p => (at0 + g * tm.p + p.1, p.2)
        let acc := ((List.range tm.groups).map fun g =>
          (if k.pair then [] else lines d0 g) ++ (if k.in1 then lines d1 g else [])).flatten
        match rm.notReady (tagOf w) false (acc.filter (fun a => a.1 == at0)) with
        | some z => s.freeze r z
        | none =>
          let s := started.modRoom r (·.countIssue tm.occ)
          let regs := (rm.chainSteps k.cdesc k.nstep).map fun st =>
            ([field st 11 7, field st 18 7, field st 25 7].filter (fun n => decide (0x40 ≤ n))).map (· - 0x40)
          let s := s.smokeVec r w regs.flatten (if k.reduce then some (k.vr, at0 + tm.dur) else none)
          let x := s.addRun r { (default : Run) with
            cmd := c, start := at0, descs := [d0, d1, od, rm.descOf (tensorOf od).rdesc], scs := rm.seq.scVis,
            regs := rm.vec.regs, steps := rm.chainSteps k.cdesc k.nstep, e := tm.dur, p := tm.p }
          let s := x.2.reads r w x.1 acc
          let s := (List.range tm.groups).foldl (fun s g =>
            s.addPend r (at0 + g * tm.p + (tm.p - 1)) w (.chainGroup x.1 g)) s
          if k.hrel && k.pair then s.addPend r (at0 + tm.occ) w (.hatchFree k.hslot) else s

/-- What the steps of a group work on: inputs by lane, the elements in the output, and the draws. -/
structure ChainEnv where
  in0   : List (BitVec 32)
  in1   : List (BitVec 32)
  unif  : List (BitVec 32)
  mask  : BitVec 256
  deriving DecidableEq, Repr, Inhabited

/-- The temporaries T0 to T7 of a group. -/
abbrev Temps := List (List (BitVec 32))

/-- An operand of a step (R289). [DEDUCED: log 79.] -/
def chainOperand (env : ChainEnv) (regs : SMap 32) (ts : Temps) (imm : BitVec 32) (n : Nat) : List (BitVec 32) :=
  if n < 8 then ts.getD n []
  else if n = 8 then List.replicate 256 imm
  else if n = 9 then env.in0
  else if n = 0x0A then env.in1
  else if n = 0x0B then env.unif
  else regLanes regs (n - 0x40)

/-- One step of a group (R290, R291). [DEDUCED: log 79.] -/
def chainStep (r : RoomId) (c : BitVec 128) (env : ChainEnv) (regs : SMap 32) (st : BitVec 64) (x : Temps × State) :
    Temps × State :=
  let op := field st 0 8
  let imm := st.extractLsb' 32 32
  let arg (lo : Nat) : List (BitVec 32) := chainOperand env regs x.1 imm (field st lo 7)
  let a := arg 11
  if op = 0x3C then
    let v := x.2.curveLanes r c (field imm 0 5) env.mask a
    (x.1.set (field st 8 3) v.1, v.2)
  else if op = 0x41 then
    let v := (indexed a).map fun p =>
      if (ofF32 (env.unif.getD p.1 0)).lt (ofF32 imm) then p.2 else 0#32
    (x.1.set (field st 8 3) v, x.2)
  else
    let b := arg 18
    let cc := arg 25
    let v := (indexed (a.zip b)).map fun p => (laneOp op p.2.1 p.2.2 (cc.getD p.1 0)).getD 0
    (x.1.set (field st 8 3) v, x.2)

/-- The reductions of a group by row (R293): the row and its lanes' result. -/
def rowReduce (pair rop : Bool) (t : Tensor) (g : Nat) (mask : BitVec 256) (v : List (BitVec 32)) :
    List (Nat × Option (BitVec 32)) :=
  let f := if rop then fMax else f32add
  let e := enabled mask v
  if pair then [(2 * g, treeReduce f 7 (e.take 128)), (2 * g + 1, treeReduce f 7 (e.drop 128))]
  else [((groupOf t g).1, treeReduce f 8 e)]

/-- One group of a chain has its inputs: its steps, and its store or its part of the reduction (R290 to R293). -/
def chainGroup (r : RoomId) (id g : Nat) (s : State) : State :=
  let rm := s.room r
  match rm.run id with
  | none => s
  | some u =>
    let w := u.cmd.word
    let k := chainOf w
    let p := u.p
    let d0 := u.descs.headD 0
    let d1 := u.descs.getD 1 0
    let od := u.descs.getD 2 0
    let t := tensorOf d0
    let ot := tensorOf od
    let at1 := s.cyc r - (p - 1)
    let i0 := if k.pair then (rm.hatch.lanes k.hslot g false, s) else s.groupLanes r u d0 false g at1
    let i1 := if k.in1 then i0.2.groupLanes r u d1 k.pair g at1
      else ((List.range 256).map fun i => Config.freeScale i0.2.free i, i0.2)
    let s := i1.2
    let lanes := (List.range 256).map (laneElem k.pair ot g)
    let mask := (indexed lanes).foldl (fun (m : BitVec 256) x => if x.2.isSome then m ||| (1#256 <<< x.1) else m) 0#256
    let iter := u.scs.toList.getD k.itersc 0
    let draws := u.steps.any fun st => field st 0 8 == 0x41 || [field st 11 7, field st 18 7, field st 25 7].contains 0x0B
    let unif := if !draws then [] else lanes.map fun x => match x with
      | some e => (uniformVal (randomWord s.job.seed (logicalIdx ot e.2 e.1) k.purpose ot.tid r.val k.roomkey iter)).toF32
      | none => 0
    let env : ChainEnv := { in0 := i0.1, in1 := i1.1, unif := unif, mask := mask }
    let x := u.steps.foldl (fun x st => chainStep r w env u.regs st x)
      (List.replicate 8 (List.replicate 256 0#32), s)
    let t0 := x.1.headD []
    let s := x.2.tickFree
    let final := g + 1 == chainGroups k.pair t
    if !k.reduce then
      let sh : StoreHow :=
        { rnd := k.rnd, sat := k.sat, purpose := k.purpose ^^^ 0x8000#16, roomkey := k.roomkey, iter := iter,
          seed := s.job.seed, lroom := r.val }
      let y := storeLinesOf s.tabs ot k.pair g sh mask t0
      let rt := if ot.rte then routeOf (u.descs.getD 3 0) else localRoute
      let last := u.start + u.e - (chainGroups k.pair t - 1 - g) * p - 6
      let s := (s.modRoom r (·.setFmt y.2 (tagOf w))).storeLines r w u.start rt last y.1
      if final then s.modRoom r (·.endRun id) else s
    else
      let f := if k.rop then fMax else f32add
      let parts := (rowReduce k.pair k.rop t g mask t0).filter (fun q => decide (q.1 < t.yext))
      let acc0 := if u.acc.isEmpty then List.replicate 256 none else u.acc
      let acc := parts.foldl (fun a q => if q.1 < 256 then a.set q.1 (combine f (a.getD q.1 none) q.2) else a) acc0
      let s := s.modRoom r fun rm => { rm with runs := rm.runs.map fun v => if v.id = id then { v with acc := acc } else v }
      if final then
        s.modRoom r fun rm =>
          let rm := rm.endRun id
          let out : Pend :=
            { due := u.start + u.e, start := u.start, word := w,
              eff := .vreg k.vr (BitVec.allOnes 256) (acc.map fun v => v.getD 0) }
          { rm with pend := rm.pend ++ [out] }
      else s

/-- VCHAIN. -/
def execVchain (r : RoomId) (c : QCmd) (s : State) : Host.Outcome State Fault Refusal := s.done (vchain r c s)

end Sys2Proof.Machine
end

