-- ==== Sys2Proof/Machine/Declared.lean ====
section
/-! DEFINITION. The COMM section of a program image (R539, R564 to R570): what it declares and its limits. -/

namespace Sys2Proof.Machine

/-- The parts of a COMM section: where each begins. -/
def commRings (bs : Bytes) : Nat := recBits bs 0 3
def commHands (bs : Bytes) : Nat := recBits bs 8 5
def commSends (bs : Bytes) : Nat := recBits bs 16 5
def commMchs (bs : Bytes) : Nat := recBits bs 24 4

/-- A ring entry (R565): its Mailslot and the Mailslot as it is at LOADED. -/
def ringOf (b : Bytes) : Nat × Ring :=
  (recBits b 0 2,
    { base := recBits b 8 12, nlines := recBits b 24 9, smc := recBits b 40 1 == 1, srank := BitVec.ofNat 12 (recBits b 48 12),
      sroom := BitVec.ofNat 7 (recBits b 64 7), smch := BitVec.ofNat 3 (recBits b 72 3), wptr := 0, rptr := 0, used := 0,
      expSeq := 0, recs := [], processed := 0, refused := 0 })

/-- A multicast entry (R568). -/
def mcOf (b : Bytes) : McEntry :=
  { mch := recBits b 0 3, members := (List.range (recBits b 8 5)).map fun i =>
      (BitVec.ofNat 12 (recBits b (128 + 32 * i) 12), BitVec.ofNat 7 (recBits b (140 + 32 * i) 7)) }

/-- A send entry (R567): the channel with one destination, or with every member of its multicast channel. -/
def sendOf (mchs : List McEntry) (b : Bytes) : SendChan :=
  let tgt := recBits b 0 3
  let mch := recBits b 28 3
  let cred := recBits b 32 13
  let one (rank : BitVec 12) (room : BitVec 7) : SendDest := { rank := rank, room := room, cred := cred, wmir := 0 }
  let dests := if tgt = 4 then (match mchs.find? fun e => e.mch == mch with
      | some e => e.members.map fun m => one m.1 m.2
      | none => [])
    else [one (BitVec.ofNat 12 (recBits b 16 12)) (BitVec.ofNat 7 (recBits b 8 7))]
  { tgt := tgt, mslot := recBits b 4 2, mch := mch, runits := recBits b 48 13, seq := 0, dests := dests }

/-- What a COMM section declares. -/
def commOf (bs : Bytes) : Comm :=
  let nr := commRings bs
  let nh := commHands bs
  let ns := commSends bs
  let h0 := 32 + 32 * nr
  let s0 := h0 + 16 * nh
  let m0 := s0 + 16 * ns
  let mchs := (List.range (commMchs bs)).map fun i => mcOf (slice bs (m0 + 80 * i) 80)
  let rings := (List.range nr).map fun i => ringOf (slice bs (32 + 32 * i) 32)
  let put (v : Vector (Option Ring) 4) (r : Nat × Ring) : Vector (Option Ring) 4 :=
    if h : r.1 < 4 then v.set r.1 (some r.2) else v
  { Comm.reset with
    rings := rings.foldl put (Vector.replicate 4 none)
    handlers := (List.range nh).map fun i => BitVec.ofNat 128 (getLE bs (h0 + 16 * i) 16)
    sends := (List.range ns).map fun i => sendOf mchs (slice bs (s0 + 16 * i) 16)
    mchs := mchs }

/-- The number of latch declarations of a COMM section. -/
def commLdecls (bs : Bytes) : Nat := recBits bs 32 11

/-- Where the parts of a COMM section begin: handlers, sends, multicast entries, latch declarations, and its end. -/
def commParts (bs : Bytes) : Nat × Nat × Nat × Nat × Nat :=
  let h0 := 32 + 32 * commRings bs
  let s0 := h0 + 16 * commHands bs
  let m0 := s0 + 16 * commSends bs
  let l0 := m0 + 80 * commMchs bs
  (h0, s0, m0, l0, l0 + 8 * commLdecls bs)

/-- The ring, handler, send and multicast entries and the latch declarations, as bytes. -/
def commEntries (bs : Bytes) (at0 n len : Nat) : List Bytes := (List.range n).map fun i => slice bs (at0 + len * i) len

def commRingEntries (bs : Bytes) : List Bytes := commEntries bs 32 (commRings bs) 32
def commSendEntries (bs : Bytes) : List Bytes := commEntries bs (commParts bs).2.1 (commSends bs) 16

/-- A latch declaration (R569): the tag of a LINIT and the count of remote arrivals. -/
def commDecls (bs : Bytes) : List (Nat × Nat) :=
  (commEntries bs (commParts bs).2.2.2.1 (commLdecls bs) 8).map fun b => (recBits b 0 16, recBits b 16 16)

/-- Largest declared record and worst-case bytes of a ring entry (R565). -/
def ringNeed (b : Bytes) : Nat := recBits b 96 32 + 16 * (1 + cdiv (recBits b 80 9) 16)

/-- Does a ring entry break R539 or R565? -/
def ringBad (b : Bytes) : Bool :=
  let n := recBits b 24 9
  recBits b 2 6 != 0 || recBits b 20 4 != 0 || recBits b 33 7 != 0 || recBits b 41 7 != 0 || recBits b 60 4 != 0 ||
    recBits b 71 1 != 0 || recBits b 75 5 != 0 || recBits b 89 7 != 0 || recBits b 128 128 != 0 ||
    recBits b 8 12 % 4 != 0 || decide (n < 4) || decide (n > 256) || decide (recBits b 8 12 + n > panLines)

/-- Does a handler entry break R566? -/
def handBad (b : Bytes) : Bool :=
  let k := recBits b 0 3
  decide (k > 4) || recBits b 3 5 != 0 || recBits b 14 2 != 0 || recBits b 31 1 != 0 || recBits b 44 4 != 0 ||
    recBits b 57 7 != 0 || recBits b 70 58 != 0 || (k == 1 && decide (recBits b 16 8 > 192)) ||
    (k == 2 && (recBits b 48 9 == 0 || decide (recBits b 48 9 > 256) || decide (recBits b 32 12 + recBits b 48 9 > panLines))) ||
    (k == 3 && (recBits b 24 7 == 0 || decide (recBits b 8 6 + recBits b 24 7 > 64))) ||
    (k == 4 && decide (recBits b 64 6 > 47))

/-- Does a send entry break R567? -/
def sendBad (b : Bytes) : Bool :=
  let cred := recBits b 32 13
  let ru := recBits b 48 13
  !([0, 2, 4].contains (recBits b 0 3)) || recBits b 3 1 != 0 || recBits b 6 2 != 0 || recBits b 15 1 != 0 ||
    recBits b 31 1 != 0 || recBits b 45 3 != 0 || recBits b 61 67 != 0 || cred == 0 || decide (cred > 4096) ||
    decide (cred > ru) || decide (ru < 64) || decide (ru > 4096)

/-- Does a multicast entry break R568? -/
def mchBad (b : Bytes) : Bool :=
  let n := recBits b 8 5
  recBits b 3 5 != 0 || recBits b 13 115 != 0 || n == 0 || decide (n > 16) ||
    (List.range 16).any fun m => recBits b (128 + 32 * m + 19) 13 != 0 || (decide (n ≤ m) && recBits b (128 + 32 * m) 32 != 0)

/-- Does a COMM section break a limit of R539 or R564 to R569, or set a reserved bit (R570)? -/
def commBad (bs : Bytes) : Bool :=
  let p := commParts bs
  let rings := commRingEntries bs
  recBits bs 3 5 != 0 || recBits bs 13 3 != 0 || recBits bs 21 3 != 0 || recBits bs 28 4 != 0 || recBits bs 43 213 != 0 ||
    decide (commRings bs > 4) || decide (commHands bs > 16) || decide (commSends bs > 16) || decide (commMchs bs > 8) ||
    decide (commLdecls bs > 1024) || decide (bs.length ≠ p.2.2.2.2) ||
    rings.any ringBad || !(noDup (rings.map fun b => recBits b 0 2)) ||
    (commEntries bs p.1 (commHands bs) 16).any handBad || (commSendEntries bs).any sendBad ||
    (commEntries bs p.2.2.1 (commMchs bs) 80).any mchBad ||
    (commEntries bs p.2.2.2.1 (commLdecls bs) 8).any fun b => recBits b 32 32 != 0

/-- Do two rings of a section share a line? -/
def ringsOverlap : List Bytes → Bool
  | [] => false
  | a :: t => t.any (fun b => decide (recBits a 8 12 < recBits b 8 12 + recBits b 24 9) &&
      decide (recBits b 8 12 < recBits a 8 12 + recBits a 24 9)) || ringsOverlap t

/-- The banks that a ring lies in. -/
def ringBanks (b : Bytes) : List Nat := ((List.range (recBits b 24 9)).map fun i => bankOf (recBits b 8 12 + i)).eraseDups

end Sys2Proof.Machine
end

