-- ==== Sys2Proof/Machine/Time.lean ====
section
/-! DEFINITION. The passage of time: what happens at the edges of the reference clock and of the Wing clocks with no command
of its own: scheduled effects, freezes, throttle stop-cycles, the Corridor and the slip counters (chapters 02, 03, 07). -/

namespace Sys2Proof.Machine

/-! ## Effects that show at the start of their schedule cycle -/

/-- Does an effect show at the start of its cycle, with nothing to be decided there? -/
def Eff.shows : Eff → Bool
  | .vreg .. => true
  | .vmask .. => true
  | .hatch .. => true
  | .hatchFree .. => true
  | .pan .. => true
  | .corridor .. => true
  | .complete .. => true
  | .mirrorFeed .. => true
  | .pown .. => true
  | .ptag .. => true
  | .halt .. => true
  | .depart .. => true
  | .localMsg .. => true
  | _ => false

/-- The order of effects of one cycle (R427, R761): Gallery writes, then ownership and tags, then mirror lines by output, then
the others. -/
def Eff.rank : Eff → Nat
  | .pan .. => 0
  | .corridor .. => 0
  | .pown .. => 1
  | .ptag .. => 1
  | .mirrorFeed e _ => 2 + e.output.toNat
  | _ => 6

/-- The last window that is over closes, and so on (R763). -/
def closeWindows (r : RoomId) : Nat → State → State
  | 0, s => s
  | n + 1, s => if s.mir.enable && s.job.js == .running && s.windowOver r then closeWindows r n (s.mirrorClose r) else s

/-- A line is fed into the Room's window and, until the first mismatch, recorded in its log (R761, R765, R766). -/
def feedWindow (r : RoomId) (e : MirrorLogEntry) (bytes : Bytes) (s : State) : State :=
  let s := closeWindows r 4096 s
  let stick := s.job.stick
  let stopped := s.mir.stopTick ≠ 0#64
  s.modRoom r fun rm =>
    let m := rm.mirror
    let log := m.log ++ [(stick, m.win, e)]
    { rm with mirror := { m with
        lines := m.lines + 1
        crc := crc64Feed m.crc bytes
        log := if stopped then m.log else log.drop (log.length - 4096) } }

/-- Is a write held no longer because of a STOP to be discarded (R806 item 3)? -/
def Room.discards (rm : Room) (line : Nat) : Bool := rm.stopped && decide (2 ≤ (sget rm.pan.tags line).toNat)

/-- The arrival of a watch (R532). -/
def watchArr (src : BitVec 64) (e : WatchEnd) : Arr :=
  { kind := .watch, line := e.wline, data := leBytes 256 e.word.toNat, mask := fullMask,
    poison := if e.poison then BitVec.allOnes 32 else 0, retried := bit e.bits 0, refresh := bit e.bits 1, src := src,
    srank := 0, sroom := 0, fab := false, bs := false }

/-- A message to the Room's own Mailslot (R546). -/
def localMsgArr (src : BitVec 64) (own : BitVec 12) (r : RoomId) (mslot : Nat) (d : Dep) : Arr :=
  { kind := .msg mslot d.hdr, line := 0, data := d.data, mask := fullMask, poison := d.poison, retried := false,
    refresh := false, src := src, srank := own, sroom := BitVec.ofNat 7 r.val, fab := false, bs := false }

/-- An effect shows. -/
def showEff (r : RoomId) (p : Pend) (s : State) : State :=
  match p.eff with
  | .vreg reg mask vals => s.modRoom r fun rm =>
      let put (m : SMap 32) (x : Nat × BitVec 32) : SMap 32 := if bit mask x.1 then sput m (256 * reg + x.1) x.2 else m
      { rm with vec := { rm.vec with regs := (indexed vals).foldl put rm.vec.regs } }
  | .vmask vm mask bits => s.modRoom r fun rm =>
      if h : vm < 8 then
        { rm with vec := { rm.vec with vm := rm.vec.vm.set vm ((rm.vec.vm[vm] &&& ~~~mask) ||| (bits &&& mask)) } }
      else rm
  | .hatch slot row col vals => s.modRoom r fun rm =>
      { rm with hatch := { rm.hatch with mem := sputList rm.hatch.mem (16384 * slot + 128 * row + col) vals } }
  | .hatchFree slot => s.modRoom r fun rm =>
      { rm with hatch := { rm.hatch.setSlot slot 0 with rel := rm.hatch.rel.filter fun e => e.1 != slot } }
  | .pan line mask data poison => s.modRoom r fun rm =>
      if rm.discards line then rm else rm.commitLine (p.due - 1) line mask data poison
  | .corridor line mask data poison => s.modRoom r fun rm =>
      if rm.discards line then rm else rm.commitLine (p.due - 1) line mask data poison
  | .complete unit op skip => s.traceEv r 2 unit true op (tagOf p.word) skip 0 0
  | .mirrorFeed e bytes => feedWindow r e bytes s
  | .pown banks own => s.modRoom r fun rm =>
      { rm with pan := { rm.pan with own := if own then rm.pan.own ||| banks else rm.pan.own &&& ~~~banks } }
  | .ptag line n tag => s.modRoom r fun rm => (List.range n).foldl (fun rm i => rm.setTag (line + i) tag) rm
  | .halt ctx => haltCtx r ctx s
  | .depart d =>
      let comp := decide (d.kind = .line) && d.tgt == 3
      let d := if comp then { d with lat := BitVec.ofNat 64 s.pal.lineSeq } else d
      let s := if comp then { s with pal := { s.pal with lineSeq := s.pal.lineSeq + 1 } } else s
      s.modRoom r fun rm => { rm with out := { rm.out with buf := rm.out.buf ++ [d] } }
  | .localMsg mslot d =>
      let a := localMsgArr (s.srcOf 8 r.val d.tag 0) s.ownRank r mslot d
      s.modRoom r (·.arrive a)
  | _ => s

/-- Every effect of a Room that shows by now. -/
def showDue (r : RoomId) (s : State) : State :=
  let cyc := s.cyc r
  let now (p : Pend) : Bool := p.eff.shows && decide (p.due ≤ cyc)
  let todo := (s.room r).pend.filter now
  let s := s.modRoom r fun rm => { rm with pend := rm.pend.filter fun p => !now p }
  let byStart := sortPend (fun p => p.start) todo
  (sortPend (fun p => p.due) (sortPend (fun p => p.eff.rank) byStart)).foldl (fun s p => showEff r p s) s

/-! ## Freeze conditions (R353, R354) -/

/-- Is a line not ready for a tag-checked access (R426)? -/
def Room.unready (rm : Room) (line : Nat) (write : Bool) : Bool :=
  let t := (sget rm.pan.tags line).toNat
  if write then decide (2 ≤ t) else t == 1 || t == 2

/-- Does a freeze condition still hold at the start of a period? The commands of a FAULTED job hold theirs (R743). -/
def Room.holds (rm : Room) : Frz → Bool
  | .line _ l write => rm.unready l write
  | .queue _ _ => !rm.seq.issuing || (queueFull rm.seq.qdVis (rm.prog.bundleAt rm.seq.bptr).cmds).isSome
  | .depart _ => decide (16 ≤ rm.out.buf.length)
  | .credit t chan => rm.pend.any fun p => match p.eff with
      | .sendMsg c d => c == chan && tagOf p.word == t && !(rm.msgReady c d)
      | _ => false

/-- The conditions of a Room's started commands for the schedule cycle that it is about to execute. -/
def Room.waits (rm : Room) (cyc : Nat) : List Frz :=
  rm.pend.filterMap fun p =>
    let t := tagOf p.word
    let full := decide (16 ≤ rm.out.buf.length)
    let write (l : Nat) : Option Frz :=
      if decide (p.due ≤ cyc + 1) && !rm.stopped && rm.unready l true then some (.line t l true) else none
    match p.eff with
    | .grab _ l lost =>
      if decide (p.due ≤ cyc) && !lost && !rm.stopped && rm.unready l false then some (.line t l false) else none
    | .pan l _ _ _ => write l
    | .corridor l _ _ _ => write l
    | .depart _ => if decide (p.due ≤ cyc + 1) && full then some (.depart t) else none
    | .sendMsg c d =>
      if p.due > cyc then none
      else if !rm.msgReady c d then (if rm.stopped then none else some (.credit t c))
      else if d.tgt ≠ 0 && full then some (.depart t) else none
    | _ => none

/-- The conditions of a Room at the start of a period: those that have cleared go, and those of the commands that have
started are taken. -/
def takeWaits (r : RoomId) (s : State) : State :=
  let rm := s.room r
  let kept := rm.frz.filter rm.holds
  let other := rm.frz.any fun f => !(rm.holds f) && (match f with
    | .line .. => true
    | .queue .. => true
    | _ => false)
  let s := s.setRoom r { rm with
    frz := kept
    seq := { rm.seq with freezeGc := if kept.isEmpty then rm.seq.freezeGc else satAdd rm.seq.freezeGc 1 } }
  let s := if other then s.modWing (wingOf r) fun g => { g with frzBits := none } else s
  ((s.room r).waits (s.cyc r)).foldl (fun s f => s.freeze r f) s

/-! ## What commands that have started do in an advancing gc -/

/-- The order of the actions of one gc; none for effects that only show. -/
def Eff.action : Eff → Option Nat
  | .mmEntry .. => some 0
  | .grab .. => some 1
  | .outLost .. => some 1
  | .hatchVec .. => some 2
  | .mmRow .. => some 3
  | .chainGroup .. => some 3
  | .copyLine .. => some 3
  | .vldEnd .. => some 3
  | .drainSlot .. => some 3
  | .sendMsg .. => some 3
  | .toCorridor .. => some 3
  | .credits .. => some 3
  | .mxBegin .. => some 4
  | .mxFill .. => some 5
  | _ => none

/-- A line enters the Corridor (R348). -/
def enterCorridor (r : RoomId) (w : BitVec 128) (dst : RoomId) (start line : Nat) (mask : LineMask) (data : Bytes)
    (poison : BitVec 32) (s : State) : State :=
  let l : CorLine :=
    { word := w, src := r, dst := dst, row := rowOf r, col := colOf r, at0 := s.cyc r, entering := true, side := 0,
      start := start, line := line, mask := mask, data := data, poison := poison }
  s.modWing (wingOf r) fun g => { g with corr := g.corr ++ [l] }

/-- One action. [DESIGN CHOICE: log 69.] -/
def actEff (r : RoomId) (p : Pend) (s : State) : State :=
  match p.eff with
  | .grab id line lost => s.grab r p.word id line lost
  | .mmEntry id _ => mmEntry r id s
  | .hatchVec slot row mask vals => hatchStore r p.word slot row mask vals s
  | .mmRow id row => mmRow r id row s
  | .chainGroup id g => chainGroup r id g s
  | .copyLine id j => copyLine r id j s
  | .vldEnd id => vldEnd r id s
  | .drainSlot c _ => drainSlot r c.word p.start s
  | .sendMsg chan d => if (s.room r).msgReady chan d then sendMsg r chan d p.word s else s
  | .toCorridor w dst line mask data poison => enterCorridor r w dst p.start line mask data poison s
  | .credits mslot units => returnCredits r p.word mslot units s
  | .mxBegin bufs ready => s.modRoom r fun rm => { rm with mx := (rm.mx.settle (s.cyc r)).startLoad bufs ready }
  | .mxFill id => mxFill r id s
  | .outLost output other =>
    s.outFault r p.word (fcOutConflict, [BitVec.ofNat 64 output, other.zeroExtend 64])
  | _ => s

/-- The actions of one place in the order. -/
def actRank (r : RoomId) (k : Nat) (s : State) : State :=
  let cyc := s.cyc r
  let now (p : Pend) : Bool := decide (p.eff.action = some k) && decide (p.due ≤ cyc)
  let todo := (s.room r).pend.filter now
  let s := s.modRoom r fun rm => { rm with pend := rm.pend.filter fun p => !now p }
  (sortPend (fun p => p.start) todo).foldl (fun s p => actEff r p s) s

/-- A Gallery or Corridor write of the gc that may not access its bank is discarded (R417, R424, R431). -/
def checkWrites (r : RoomId) (s : State) : State :=
  let cyc := s.cyc r
  (s.room r).pend.foldl (fun s p =>
    let drop (line : Nat) : State :=
      if p.due ≠ cyc + 1 then s
      else match (s.room r).galFail line cyc with
        | some f =>
          (s.modRoom r fun rm => { rm with pend := delFirst (fun q => decide (q = p)) rm.pend }).galReport r p.word line f 0
        | none => s
    match p.eff with
    | .pan l _ _ _ => drop l
    | .corridor l _ _ _ => drop l
    | _ => s) s

/-- The actions of a Room in an advancing gc. -/
def actRoom (r : RoomId) (s : State) : State :=
  let s := actRank r 2 (actRank r 1 ((actRank r 0 s).arbitrate r))
  let s := checkWrites r (actRank r 3 s)
  actRank r 5 (actRank r 4 s)

/-! ## The Corridor (R348 to R351) -/

/-- The link a line claims next: its row and column and where it leads (0 lower column, 1 higher column, 2 other row). -/
def CorLine.link (l : CorLine) : Nat × Nat × Nat :=
  (l.row, l.col, if l.col > colOf l.dst then 0 else if l.col < colOf l.dst then 1 else 2)

def CorLine.arrived (l : CorLine) : Bool := l.col == colOf l.dst && l.row == rowOf l.dst

/-- A line takes its link: 2 gc to the next column, 1 gc to the other row (R34). -/
def CorLine.hop (l : CorLine) : CorLine :=
  match l.link.2.2 with
  | 0 => { l with col := l.col - 1, at0 := l.at0 + 2, entering := false, side := 1 }
  | 1 => { l with col := l.col + 1, at0 := l.at0 + 2, entering := false, side := 0 }
  | _ => { l with row := 1 - l.row, at0 := l.at0 + 1, entering := false, side := 2 }

/-- Which of two lines with one claim proceeds, as a number: the lower one (R351). -/
def CorLine.turn (l : CorLine) : Nat := if l.entering then 3 else l.side

/-- CORRIDOR_CONFLICT: a line is dropped. -/
def corridorDrop (l won : CorLine) (s : State) : State :=
  s.outFault l.src l.word (fcCorridor, [(tagOf won.word).zeroExtend 64, BitVec.ofNat 64 l.col]) (tagOf won.word).toNat

/-- A line reaches its destination's Gallery port, which writes it 6 gc later (R345). -/
def corridorWrite (l : CorLine) (s : State) : State :=
  let cyc := s.cyc l.dst + 6
  let x := s.claim l.dst l.word l.start l.line cyc 2
  let y := if x.1 && partialWord l.mask then x.2.claim l.dst l.word l.start l.line (cyc - 1) 4 else x
  if y.1 then
    y.2.modRoom l.dst fun rm => { rm with pend := rm.pend ++ [
      { due := cyc + 1, start := l.start, word := l.word, eff := .corridor l.line l.mask l.data l.poison }] }
  else
    y.2.modRoom l.dst fun rm => { rm with pan := { rm.pan with
      uses := rm.pan.uses.filter fun u => !(decide (u.word = l.word) && u.line == l.line && u.cyc == cyc && u.kind == 2) } }

/-- The line of a group that proceeds. -/
def corridorWinner (l : CorLine) (ls : List CorLine) : CorLine :=
  ls.foldl (fun w x => if x.turn < w.turn then x else w) l

/-- The lines that claim a link or reach their destination in this gc: of each group one proceeds. -/
def corridorStep (w : WingId) (s : State) : State :=
  let cyc := (s.wing w).acyc
  let now := (s.wing w).corr.filter fun l => decide (l.at0 ≤ cyc)
  let s := s.modWing w fun g => { g with corr := g.corr.filter fun l => decide (cyc < l.at0) }
  let same (a b : CorLine) : Bool :=
    if a.arrived then b.arrived && a.dst == b.dst else !b.arrived && a.link == b.link
  now.foldl (fun s l =>
    let won := corridorWinner l (now.filter (same l))
    if won ≠ l then corridorDrop l won s
    else if l.arrived then corridorWrite l s
    else s.modWing w fun g => { g with corr := g.corr ++ [l.hop] }) s

/-! ## The end of a freeze (R356, R451, R452) -/

/-- The eight words of a record of R69. -/
def slipRecord (tick stick : BitVec 64) (kind wing lroom : Nat) (tag : BitVec 16) (past dropped budget shift : Nat)
    (slips : List Nat) : List (BitVec 64) :=
  let n := pack ([(0, 64, tick.toNat), (64, 64, stick.toNat), (128, 4, kind), (132, 2, wing), (136, 7, lroom),
    (144, 16, tag.toNat), (160, 32, past), (192, 16, min dropped 0xFFFF), (224, 32, budget), (256, 32, shift)] ++
    (indexed slips).map fun p => (288 + 32 * p.1, 32, p.2))
  (List.range 8).map fun i => BitVec.ofNat 64 (nbits n (64 * i) 64)

/-- The working slip counters in the order of R58. [DESIGN CHOICE: log 9.] -/
def Wing.slips (g : Wing) : List Nat :=
  [g.thrGc.toNat, g.strEvt.toNat, g.frRefresh.toNat, g.frRetry.toNat, g.frOther.toNat, g.freqGc.toNat]

/-- A freeze's gc go to the cause that its last arrival names (R57). [DESIGN CHOICE: log 9; DEDUCED: log 11.] -/
def Wing.charge (g : Wing) : Wing :=
  if !(g.active && !g.done) then g
  else match g.frzBits with
    | some b =>
      if bit b 0 then { g with frRetry := satAdd g.frRetry g.frzLen }
      else if bit b 1 then { g with frRefresh := satAdd g.frRefresh g.frzLen }
      else { g with frOther := satAdd g.frOther g.frzLen }
    | none => { g with frOther := satAdd g.frOther g.frzLen }

/-- A Room's lag reads of a freeze (before R459), and the end of the freeze in its trace. -/
def endRoomFreeze (len : Nat) (r : RoomId) (s : State) : State :=
  let rm := s.room r
  if !rm.frzIn then s
  else
    let d := rm.dw
    let d := { d with
      lags := 0
      lagReads := satAdd d.lagReads d.lags
      lagSum := satAdd d.lagSum (d.lags * len)
      lagMax := if d.lags ≠ 0 && decide (d.lagMax.toNat < len) then BitVec.ofNat 16 (min len 0xFFFF) else d.lagMax }
    (s.setRoom r { rm with dw := d, frzIn := false }).traceEv r 5 0 false 0 0 false 0 len

/-- A KIND 0x1 record, or its count in the Room when the Wing already has one in this schedule tick (R451). -/
def lateData (w : WingId) (r : RoomId) (tag : BitVec 16) (s : State) : State :=
  let g := s.wing w
  if !s.job.rt || !g.active || g.done || decide (g.frzLen < s.lateReport) then s
  else if g.lateRec then
    s.modRoom r fun rm => { rm with dw := { rm.dw with lateUnrep := satAdd rm.dw.lateUnrep 1 } }
  else
    let body := slipRecord s.job.boundTick s.job.stick 1 w.val r.val tag g.frzLen 0 g.budget 0 g.slips
    let s := s.modWing w fun g => { g with lateRec := true }
    ({ s with job := { s.job with miss := true } }).report
      { code := 0x1101#16, cls := 0#2, lroom := BitVec.ofNat 7 r.val, wing := BitVec.ofNat 2 w.val, src := 5#4, tag := tag
        body := body, lost := false }

/-- The end of a freeze. [DESIGN CHOICE: log 9.] -/
def freezeEnd (w : WingId) (s : State) : State :=
  let g := s.wing w
  let s := s.modWing w (·.charge)
  let s := ((roomsOf w).filter s.roomUp).foldl (fun s r => endRoomFreeze g.frzLen r s) s
  let s := match g.frzRead with
    | some x => lateData w x.1 x.2 s
    | none => s
  s.modWing w fun g => { g with frzOn := false, frzLen := 0, frzBits := none, frzRead := none, frzRep := false }

/-- WING_FREEZE_END: no Room of the Wing holds a condition at the start of the present period. [DESIGN CHOICE: log 10.] -/
def wingFreezeEnd (w : WingId) (s : State) : State :=
  let g := s.wing w
  if !g.frzOn || g.held || s.frozenW w then s else freezeEnd w s

/-! ## The Rooms that a freeze finds waiting (R353, R354) -/

/-- The Wing as though no Room of it held a freeze condition and the throttle asked for nothing. -/
def State.thaw (s : State) (w : WingId) : State :=
  (roomsOf w).foldl (fun s r => s.modRoom r fun rm => { rm with frz := [] })
    (s.modWing w fun g => { g with held := false, thr := false })

/-- The start of the command at the head of a unit's queue, for the commands that a line may hold. -/
def startHead (unit : Nat) (r : RoomId) (s : State) : State :=
  match (s.room r).queue unit with
  | [] => s
  | c :: _ =>
    match unit, opcodeOf c.word with
    | 3, 1 => mload r c s
    | 3, op => if decide (4 ≤ op) && decide (op ≤ 7) then mmStream op r c s else s
    | 4, 1 => vld r c s
    | 4, 8 => vchain r c s
    | 5, 1 => ocopy r c s
    | 5, 2 => omsg r c s
    | _, _ => s

/-- The freeze conditions that a Room meets in the schedule cycle which its Wing is about to execute: those of the bundle due
and of the commands that would start. [DESIGN CHOICE: log 69.] -/
def State.meets (s : State) (r : RoomId) : List Frz :=
  let w := wingOf r
  let start (x : State × List Frz) (f : State → State) : State × List Frz :=
    let t := f x.1
    (t.thaw w, x.2 ++ (t.room r).frz)
  ([bundleIssue r, startHead 3 r, startHead 3 r, startHead 4 r, startHead 5 r].foldl start (s.thaw w, [])).2

/-- In the first gc of a freeze every Room of the Wing takes the conditions that the held schedule cycle has for it (R353,
R452), whichever row found the freeze. [DESIGN CHOICE: log 69.] -/
def heldToo (r : RoomId) (s : State) : State :=
  (s.meets r).foldl (fun s f =>
    if (s.room r).frz.contains f then s
    else
      let s := match f with
        | .queue t u => s.smokeRep (some r) 7 t 0 u
        | _ => s
      s.freeze r f) s

/-! ## A period of a Wing clock -/

/-- The predicate bits of watches whose third period has ended, and their arrivals, which enter the buffer in that period
(R532, R533). [DEDUCED: log 75.] -/
def watchBits (r : RoomId) (period : Nat) (s : State) : State :=
  let src := s.srcOf 7 r.val 0 0
  s.modRoom r fun rm =>
    let due (e : WatchEnd) : Bool := decide (e.due ≤ period)
    let ends := rm.wends.filter due
    let rm := { rm with
      seq := ends.foldl (fun q e => q.setPb e.pd e.val) rm.seq
      wends := rm.wends.filter fun e => !(due e) }
    (ends.filter (·.wlen)).foldl (fun rm e => rm.arrive (watchArr (setField src 24 16 e.tag.toNat) e)) rm

/-- The end of a period, charged to its cause (R54, R97, R531). A freeze that ended with the period before it is charged
here when no WING_FREEZE_END has come. [DESIGN CHOICE: log 10.] -/
def endPeriod (w : WingId) (s : State) : State :=
  let g := s.wing w
  let rs := (roomsOf w).filter s.roomUp
  let adv := s.advancing w
  let frozen := g.frzOn && (g.held || s.frozenW w)
  let stop := match g.fstop with
    | some f => decide (f.since < s.now)
    | none => false
  let counts := g.active && !g.done && !stop
  let s := if adv then rs.foldl (fun s r => flushLat r s) s else s
  let s := if frozen && !stop && g.frzLen == 0 then rs.foldl (fun s r => heldToo r s) s else s
  let s := rs.foldl (fun s r => watchBits r g.periods s) s
  let s := if g.frzOn && !frozen then freezeEnd w s else s
  let s := rs.foldl (fun s r => s.modRoom r fun rm => { rm with trace := rm.trace.flush }) s
  s.modWing w fun g => { g with
    periods := g.periods + 1, acyc := g.acyc + b2n adv, prevStr := g.curStr, curStr := false
    freqGc := if stop && g.active && !g.done then satAdd g.freqGc 1 else g.freqGc
    frzLen := if frozen && !stop then g.frzLen + 1 else g.frzLen
    thrGc := if counts && !frozen && g.thr then satAdd g.thrGc 1 else g.thrGc }

/-- What a Room's units see at the start of a period (R314, R316, R319, R324, R330, R525). -/
def refreshRoom (r : RoomId) (s : State) : State :=
  let g := s.wing (wingOf r)
  let rm := s.room r
  let wait : Bool := match rm.out.buf with
    | d :: _ => rm.flagWait d || rm.trkWait d
    | [] => false
  let depths : Vector Nat 7 := rm.queues.map fun (q : List QCmd) => q.length
  let prog := rm.prog.dsets.foldl (fun (p : Prog) d => p.applyDset d) rm.prog
  let rm := { rm with
    latch := rm.latch.newPeriod
    seq := { rm.seq with scVis := rm.seq.sc, pbVis := rm.seq.pb, qdVis := depths }
    prog := { prog with dsets := [] }
    pan := { rm.pan with uses := rm.pan.uses.filter fun u => decide (g.acyc ≤ u.cyc) }
    out := { rm.out with
      lines := rm.out.lines.filter fun l => decide (g.acyc ≤ l.cyc)
      waitGc := if wait then satAdd rm.out.waitGc 1 else rm.out.waitGc } }
  s.setRoom r rm

/-- Does the throttle, or a droop, ask for the coming gc (R93, R122)? -/
def Wing.asks (g : Wing) : Bool := decide (256 ≤ g.acc + max g.dutyT.toNat g.dutyP.toNat) || g.stopNext

/-- The throttle of a gc (R55, R93, R122): an accumulated demand makes it a stop-cycle unless it is frozen or stopped. -/
def Wing.throttle (g : Wing) (held : Bool) : Wing :=
  let acc := g.acc + max g.dutyT.toNat g.dutyP.toNat
  { g with
    acc := if 256 ≤ acc then acc - 256 else acc
    stopNext := false
    held := held
    thr := g.asks && !held && g.fstop.isNone }

/-- The start of a period. Where the throttle asks for it, the freeze conditions of the schedule cycle that is due are looked
for first, since a freeze comes before a stop-cycle (R54). [DESIGN CHOICE: log 9.] -/
def startPeriod (w : WingId) (s : State) : State :=
  let rs := (roomsOf w).filter s.roomUp
  let s := rs.foldl (fun s r => refreshRoom r s) s
  let s := rs.foldl (fun s r => showDue r s) s
  let s := rs.foldl (fun s r => takeWaits r s) s
  let s := if (s.wing w).asks then rs.foldl (fun s r => heldToo r s) s else s
  let held := s.frozenW w
  let s := s.modWing w fun g => g.throttle held
  if s.advancing w then corridorStep w (rs.foldl (fun s r => actRoom r s) s) else s

/-! ## Boundaries ahead (R64, R67, R91) -/

/-- Has every Wing that has Rooms completed its schedule tick? -/
def State.allComplete (s : State) : Bool := s.wings.toList.all fun g => !g.active || g.done

/-- The rc of the next boundary, where it is known: throughput mode waits for the last Wing (R67), and once the job no longer
runs a boundary that waited comes with the next reference edge. [DEDUCED: log 13.] -/
def State.nextBound (s : State) : Option Nat :=
  if !s.job.ticking then none
  else if s.job.rt then some s.job.bound
  else if s.job.js ≠ .running then some (max s.job.bound (cdiv s.now RCQ))
  else if s.allComplete then
    some (s.wings.toList.foldl (fun b g => if g.active then max b (cdiv g.doneTime RCQ) else b) s.job.bound)
  else none

/-- Will a schedule tick begin at the next boundary, as far as is known now? -/
def State.willBegin (s : State) : Bool :=
  s.job.js == .running && !s.job.frozen && s.allComplete && !s.thr.clk.stopAll && s.job.pend == 0

/-- The quanta of the next boundary if the edge at `now` would be the last before it: the period is lengthened to it
(R91). [DESIGN CHOICE: log 18.] -/
def State.lengthen (s : State) (w : WingId) : Option Nat :=
  let g := s.wing w
  match s.nextBound with
  | some b => if s.willBegin && decide (s.now < b * RCQ) && decide (b * RCQ < s.now + g.period) then some (b * RCQ) else none
  | none => none

/-- An edge of a Wing clock. [DESIGN CHOICE: log 9; DESIGN CHOICE: log 18.] -/
def wingEdge (w : WingId) (s : State) : State :=
  match s.lengthen w with
  | some t => s.modWing w fun g => { g with nextEdge := t }
  | none =>
    let s := endPeriod w s
    startPeriod w (s.modWing w fun g => { g with nextEdge := s.now + g.period })

/-! ## An edge of the reference -/

/-- At the reference edge of a frequency-change stop the Wing clock is gated, and a higher rail setpoint is requested (R95
steps 2 and 3). -/
def gateClock (w : WingId) (s : State) : State :=
  let g := s.wing w
  match g.fstop with
  | some f =>
    if g.clockOn && decide (f.gateAt ≤ s.rc) then
      let s := (endPeriod w s).modWing w fun g => { g with clockOn := false, lock := false }
      if f.oldM < f.newM then s.askRail w f.newM else s
    else s
  | none => s

/-- A live port returns its credits in the slots it sends (R604, R626). -/
def Port.idle (q : Port) : Port :=
  if q.live then { q with crb := Vector.replicate 2 0, crs := Vector.replicate 2 0 } else q

/-- One reference cycle: the counts of the Threshold, strobes, gated clocks, and the credits that idle slots and flits return
(R629, R658, R826). [DESIGN CHOICE: log 16.] -/
def refEdge (s : State) : State :=
  let k := s.thr.clk
  let jclk := match k.jclkSet with
    | some v => v
    | none => k.jclk + 1
  let k := { k with jclk := jclk, jclkSet := none, holdRc := if k.holdover then satAdd k.holdRc 1 else k.holdRc }
  let rc := s.rc + 1
  let porch (x : Porch) : Porch := { x with ports := x.ports.map Port.idle }
  let ret (n : Nat) : Nat := if s.pal.live then n - 36 else n
  let s := { s with
    rc := rc
    thr := { s.thr with clk := k, pwr := s.thr.pwr.strobe rc }
    fab := { s.fab with porches := s.fab.porches.map porch }
    pal := { s.pal with reqRet := ret s.pal.reqRet, monRet := ret s.pal.monRet } }
  allWings.foldl (fun s w => gateClock w s) s

/-! ## The tick of the model -/

/-- The next instant at which the reference or a running Wing clock has an edge. [DESIGN CHOICE: log 2; DEDUCED: log 91.] -/
def State.nextInstant (s : State) : Nat :=
  s.wings.toList.foldl (fun t g => if g.clockOn then min t (max g.nextEdge (s.now + 1)) else t) ((s.rc + 1) * RCQ)

/-- The rc count at an instant that the next edge reaches. [DESIGN CHOICE: log 2.] -/
def State.rcAt (s : State) (t : Nat) : Nat := if (s.rc + 1) * RCQ ≤ t then s.rc + 1 else s.rc

/-- What happens at the edges of an instant: the reference comes before the Wing clocks. [DESIGN CHOICE: log 2; DEDUCED: log 91.] -/
def edgesAt (t : Nat) (s : State) : State :=
  let s := if (s.rc + 1) * RCQ ≤ t then refEdge s else s
  allWings.foldl (fun s w => if (s.wing w).clockOn && decide ((s.wing w).nextEdge ≤ t) then wingEdge w s else s) s

/-- Time passes to the next edge; no command is sent. [DESIGN CHOICE: log 1; DESIGN CHOICE: log 2; DESIGN CHOICE: log 89.] -/
def tick (s : State) : State :=
  let t := s.nextInstant
  { edgesAt t { s with now := t } with pending := s.pending, now := t, rc := s.rcAt t }

end Sys2Proof.Machine
end

