-- ==== Sys2Proof/Machine/Verify.lean ====
section
/-! DEFINITION. The on-device verifier (R393 to R401): every segment of every logical Room is run from every entry state on
the rules of the units themselves, with no freeze, every predicate true and every Dumbwaiter command starting at issue. -/

namespace Sys2Proof.Machine

/-- A failure that the verifier finds (R400, R401): code, logical Room, segment, bundle offset, command position and
command; the command is zero for a failure that no single command makes. -/
structure VFail where
  code  : Nat
  lroom : Nat
  seg   : Nat
  boff  : Nat
  pos   : Nat
  cmd   : BitVec 128
  deriving DecidableEq, Repr, Inhabited

/-- What the verifier works from beside the state (R393): Room count, profile, ratios, COMM sections by Room, companion
window. -/
structure VImage where
  lrooms  : Nat
  profile : Nat
  ratios  : List Nat
  comms   : List (Nat × Bytes)
  cmpBase : Nat
  cmpLen  : Nat
  deriving Repr

def VImage.comm (v : VImage) (lroom : Nat) : Option Bytes := (v.comms.find? fun c => c.1 == lroom).map (·.2)

/-! ## Segments as written -/

def isTend (c : BitVec 128) : Bool := unitOf c == 0 && opcodeOf c == 0x11
def isLoop (c : BitVec 128) : Bool := unitOf c == 0 && opcodeOf c == 0x10

/-- The bundles from an offset up to the first with a TEND; `fuel` bounds their number. -/
def walkFrom (p : Prog) : Nat → Nat → List (Nat × Bundle)
  | 0, _ => []
  | fuel + 1, off =>
    if off ≥ p.bundleLen then []
    else
      let b := p.bundleAt off
      (off, b) :: (if b.cmds.any isTend then [] else walkFrom p fuel (off + b.len))

/-- The bundles of each segment. -/
def Prog.walk (p : Prog) : List (List (Nat × Bundle)) := p.segs.map fun g => walkFrom p (p.bundleLen / 24 + 1) g.off

/-- A command of the image: its segment, its place, and its number, the index of its 64-bit word in the store. -/
structure VCmd where
  seg  : Nat
  boff : Nat
  pos  : Nat
  cmd  : BitVec 128
  deriving DecidableEq, Repr, Inhabited

def VCmd.loc (c : VCmd) : Nat := (c.boff + 8 + 16 * c.pos) / 8

/-- The commands of a Room program. -/
def vcmdsOf (ws : List (List (Nat × Bundle))) : List VCmd :=
  (indexed ws).flatMap fun g => g.2.flatMap fun b => (indexed b.2.cmds).map fun c =>
    { seg := g.1, boff := b.1, pos := c.1, cmd := c.2 }

/-- The program with each command's TAG replaced by its number, so that a report says where its command stands. -/
def Prog.numbered (p : Prog) (cs : List VCmd) : Prog :=
  { p with bundle := cs.foldl (fun m c => sputList m (8 * c.loc + 2) (leBytes 2 c.loc)) p.bundle, bundleDue := [], descDue := [] }

/-- The descriptor bits that some DSET of the binary can write (R397). -/
def dsetMask (cs : List VCmd) : SMap 256 :=
  cs.foldl (fun m c =>
    if unitOf c.cmd = 0 && opcodeOf c.cmd = 0x0E then
      let e := field c.cmd 64 11
      sput m e (setField (sget m e) (field c.cmd 75 8) (field c.cmd 83 6 + 1) (2 ^ 64 - 1))
    else m) []

/-- The checks of a bundle header and of sequencer commands, which need no timing: 0x0601 and 0x0704 (R309, R328, R359). -/
def bundleFails (first : Bool) (b : Bundle) : List (Nat × Nat) :=
  (if first == (b.delta == 0) then [] else [(0x0601, 0)]) ++ (if b.bad then [(0x0704, 0)] else []) ++
    (indexed b.cmds).filterMap fun c =>
      let op := opcodeOf c.2
      if decide (unitOf c.2 > 6) then some (0x0704, c.1)
      else if unitOf c.2 ≠ 0 then none
      else if !(seqOpOk op) then some (0x0704, c.1)
      else if (isTend c.2 || isLoop c.2) && field c.2 12 4 != 0 then some (0x0601, c.1)
      else if seqBad op c.2 then some (0x0704, c.1)
      else none

def staticFails (lroom : Nat) (p : Prog) (ws : List (List (Nat × Bundle))) : List VFail :=
  (indexed ws).flatMap fun g =>
    let off := (p.segs.getD g.1 { off := 0, budget := 0, newM := 0 }).off
    let inside := ws.any fun w => w.any fun b => decide (b.1 < off) && decide (off < b.1 + b.2.len)
    let fail (code boff pos : Nat) (c : BitVec 128) : VFail :=
      { code := code, lroom := lroom, seg := g.1, boff := boff, pos := pos, cmd := c }
    (if off % 8 != 0 || decide (off ≥ p.bundleLen) || inside then [fail 0x0601 off 0 0] else []) ++
    (indexed g.2).flatMap fun b => (bundleFails (b.1 == 0) b.2.2).map fun f =>
      fail f.1 b.2.1 f.2 (b.2.2.cmds.getD f.2 0)

/-- The segments that the TEND of a segment can select (R395). -/
def nextsOf (w : List (Nat × Bundle)) (nsegs : Nat) : List Nat :=
  let tends := (w.flatMap fun b => b.2.cmds).filter isTend
  ((tends.flatMap fun c => [field c 64 16, field c 80 16]).filter fun n => decide (n < nsegs)).eraseDups

/-! ## Entry states (R395) -/

/-- An entry state; the line tags come with it and do not distinguish it. -/
structure VEntry where
  hatch : BitVec 8
  act   : Vector MxBuf 4
  shd   : Vector MxBuf 4
  own   : BitVec 12
  gated : BitVec 12
  tags  : SMap 2
  deriving DecidableEq, Repr, Inhabited

/-- The entry state at LOADED. -/
def VEntry.loaded : VEntry :=
  { hatch := 0, act := Vector.replicate 4 MxBuf.reset, shd := Vector.replicate 4 MxBuf.reset, own := 0, gated := 0, tags := [] }

def VEntry.same (a b : VEntry) : Bool := { a with tags := [] } == { b with tags := [] }

/-- State and format record of a buffer, without its contents. -/
def MxBuf.bare (b : MxBuf) : MxBuf := { b with cells := [], scales := [] }

/-- The entry state that the end of a tick leaves. -/
def Room.exitState (rm : Room) (cyc : Nat) : VEntry :=
  let mx := rm.mx.settle cyc
  { hatch := BitVec.ofNat 8 (pack ((List.range 4).map fun n => (2 * n, 2, rm.hatch.slotAt n cyc)))
    act := mx.act.map MxBuf.bare, shd := mx.shd.map MxBuf.bare, own := rm.pan.own, gated := rm.pan.gated, tags := rm.pan.tags }

/-! ## One run of a segment -/

/-- What is known while a segment runs: the machine, the static counters now and at the start of the gc (R396), the commands
found to depend on dynamic state, the commands of units 1, 5 and 6 that started, the lines sent into the Corridor, the
failures as code, command number and the number of the command that won (0x10000: none; 0x20000: one of a rule that no
dynamic state decides), and the banks that the Gallery has owned. -/
structure VSim where
  s       : State
  stat    : BitVec 16
  statVis : BitVec 16
  dyn     : List Nat
  ran     : List (BitVec 128)
  out     : List CorLine
  fails   : List (Nat × Nat × Nat)
  inFails : List (Nat × CorLine)
  owned   : BitVec 12
  stop    : Bool
  deriving Repr

/-- What a run has to go by: the Room, the dynamic descriptor bits, the companion window, and the Corridor lines that come
in, each with the gc in which it reaches the Room. -/
structure VCfg where
  room  : RoomId
  mask  : SMap 256
  v     : VImage
  come  : List (Nat × CorLine)
  deriving Repr

/-- The reason code of a fault (R401, R464, R516, R573). -/
def reasonOf (code : Nat) : Option Nat :=
  ([(fcDescKind, 0x0701), (fcDescField, 0x0702), (fcPanField, 0x0702), (fcDwField, 0x0702), (fcXgField, 0x0702),
    (fcDescRange, 0x0703), (fcFormat, 0x0705), (fcMmField, 0x0706), (fcMmLayout, 0x0707), (fcMmNotReady, 0x0708),
    (fcMmFormat, 0x0709), (fcMmAxis, 0x070A), (fcHatchOwner, 0x070B), (fcVecField, 0x070C), (fcDrainField, 0x070C),
    (fcVecLayout, 0x070D), (fcVecCurve, 0x070E), (fcOutField, 0x070F), (fcOutRoute, 0x0710), (fcMsgNochan, 0x0710),
    (fcLatField, 0x0711), (fcLatBusy, 0x0711), (fcPanOwner, 0x0801), (fcPanConflict, 0x0802), (fcPanGated, 0x0803),
    (fcOutConflict, 0x0805)].find? fun p => p.1 == code).map (·.2)

/-- The descriptor bits that no rule of the verifier depends on: TID, LBASE and LPITCH of a tensor. -/
def ruleBits : BitVec 256 := ~~~(BitVec.ofNat 256 (pack [(120, 112, 2 ^ 112 - 1)]))

/-- The entries that a command names, with the bits its rules depend on. -/
def Room.named (rm : Room) (w : BitVec 128) : List (Nat × BitVec 256) :=
  let op := opcodeOf w
  let all := BitVec.allOnes 256
  let tensor (i : Nat) : Nat × BitVec 256 := (i, ruleBits)
  let target (i : Nat) : List (Nat × BitVec 256) :=
    let t := tensorOf (rm.descOf i)
    if t.rte then [tensor i, (t.rdesc, all)] else [tensor i]
  match unitOf w with
  | 1 => if op = 1 || op = 2 then [(field w 32 11, all)] else if op = 3 then [] else [(field w 32 11, all), (field w 64 11, all)]
  | 3 => if op = 2 then [] else [tensor (field w 32 11)]
  | 4 =>
    let k := chainOf w
    if op = 1 || op = 0x40 then [tensor (field w 32 11)]
    else if op = 2 then target (field w 32 11)
    else if op = 8 then
      tensor k.idesc :: (if k.in1 then [tensor k.idesc1] else []) ++ (if k.reduce then [tensor k.odesc] else target k.odesc) ++
        (List.range (cdiv k.nstep 4)).map fun i => (k.cdesc + i, all)
    else []
  | 5 =>
    if op = 1 then target (field w 32 11) ++ [tensor (field w 43 11)]
    else if op = 2 then [(field w 32 11, all), tensor (field w 43 11)]
    else [(field w 32 11, all)]
  | _ => []

/-- Does a rule of a command depend on a dynamic descriptor bit, and on a dynamic KIND? -/
def VCfg.dynDesc (k : VCfg) (rm : Room) (w : BitVec 128) : Bool × Bool :=
  let hit (e : Nat × BitVec 256) (m : BitVec 256) : Bool := sget k.mask e.1 &&& e.2 &&& m != 0
  ((rm.named w).any fun e => hit e (BitVec.allOnes 256), (rm.named w).any fun e => hit e 0xF)

/-- Does a rule of a command depend on a dynamic counter: the group of VLD and VST? -/
def dynCount (statVis : BitVec 16) (w : BitVec 128) : Bool :=
  unitOf w == 4 && (opcodeOf w == 1 || opcodeOf w == 2) && !(bit statVis (field w 56 4))

/-- The static counters after a sequencer command (R396). -/
def statAfter (st : BitVec 16) (c : BitVec 128) : BitVec 16 :=
  let d := field c 32 4
  let put (b : Bool) : BitVec 16 := setField st d 1 (b2n b)
  match opcodeOf c with
  | 1 => put true
  | 2 | 3 | 4 | 5 | 6 => put (bit st (field c 36 4) && (bit c 44 || bit st (field c 40 4)))
  | 7 => put (bit st (field c 36 4))
  | 0x0C | 0x0D => put false
  | _ => st

/-- A sequencer command by its OPCODE. -/
def seqStart (r : RoomId) (c : QCmd) (s : State) : State :=
  match opcodeOf c.word with
  | 0 => snop r c s
  | 1 => sset r c s
  | 2 => sadd r c s
  | 3 => ssub r c s
  | 4 => smul r c s
  | 5 => sand r c s
  | 6 => sor r c s
  | 7 => sshr r c s
  | 8 => scmp r c s
  | 9 => pset r c s
  | 0x0C => qdepth r c s
  | 0x0D => svget r c s
  | 0x0E => dset r c s
  | 0x10 => loop r c s
  | 0x11 => tend r c s
  | _ => s

/-- In the verifier every slot of a DRAIN processes a record: each bank that a STORE handler can write, in each slot (after
R557). -/
def drainStores (r : RoomId) (c : BitVec 128) (s : State) : State :=
  let stores := (s.room r).comm.handlers.filter fun h => field h 0 3 == 2
  let lines := stores.flatMap fun h => (List.range (field h 48 9)).map (field h 32 12 + ·)
  let banks := (lines.map bankOf).eraseDups
  let one := banks.filterMap fun b => lines.find? fun l => bankOf l == b
  let at0 := s.cyc r
  (List.range (field c 40 6 + 1)).foldl (fun s i =>
    one.foldl (fun s l => s.galWrite r c at0 l (at0 + 4 * i + 3) fullMask [] 0) s) s

/-- A Dumbwaiter command starts in its issue gc (R393): no context and no engine is busy. -/
def dwStart (r : RoomId) (c : QCmd) (s : State) : State :=
  let s := s.modRoom r fun rm => { rm with dw := Dw.reset, dwFree := 0 }
  match opcodeOf c.word with
  | 1 => dwStream 1 r c s
  | 2 => dwStream 2 r c s
  | 3 => dwhalt r c s
  | 8 => engineCmd 8 r c s
  | 9 => engineCmd 9 r c s
  | 10 => engineCmd 10 r c s
  | _ => dwReserved r c s

/-- The command at the head of its unit's queue, if its start rule lets it start now. -/
def unitStart (r : RoomId) (c : QCmd) (s : State) : State :=
  let op := opcodeOf c.word
  match unitOf c.word with
  | 1 => dwStart r c s
  | 2 => panReserved r c (pown r c (pgate r c (pwake r c (ptagclr r c s))))
  | 3 => if op = 1 then mload r c s else if op = 2 then mswap r c s
    else if [4, 5, 6, 7].contains op then mmStream op r c s else mmReserved r c s
  | 4 =>
    if op = 1 then vld r c s else if op = 2 then vst r c s else if op = 4 then vhld r c s else if op = 5 then vhst r c s
    else if op = 6 then vhrel r c s else if op = 8 then vchain r c s else if op = 0x40 then vrng r c s
    else if op = 0x38 then
      let t := drain r c s
      if ((t.room r).queue 4).length < ((s.room r).queue 4).length then drainStores r c.word t else t
    else if decide (op ≤ 0x3C) && decide (0x10 ≤ op) && op != 0x2B && op != 0x2F && op != 0x1A then
      let t := vecReserved r c s
      if ((t.room r).queue 4).length < ((s.room r).queue 4).length then t else layoutA op r c s
    else vecReserved r c s
  | 5 => if op = 1 then ocopy r c s else if op = 2 then omsg r c s else if op = 3 then oinc r c s else outletReserved r c s
  | 6 => if op = 1 then linit r c s else if op = 2 then ladd r c s else if op = 3 then lwatch r c s
    else if op = 4 then lbar r c s else latReserved r c s
  | _ => s

/-- LV_FLAG (R560): an increment of a latch by OINC, or by OMSG through a LINC handler, with TGT 2 or 4 and FLAG 0. -/
def Room.flagBad (rm : Room) (w : BitVec 128) : Bool :=
  let rt := routeOf (rm.descOf (field w 32 11))
  let inc := opcodeOf w == 3 || (opcodeOf w == 2 && field (rm.comm.handlers.getD (field w 66 4) 0) 0 3 == 4)
  unitOf w == 5 && inc && (rt.tgt == 2 || rt.tgt == 4) && !rt.flag

/-- Is every granule of [a, a + n) covered with a right (R490)? -/
def State.covered (s : State) (a n : Nat) (wr : Bool) : Bool :=
  (List.range ((a + n - 1) / 4096 - a / 4096 + 1)).all fun i => s.hasRight (4096 * (a / 4096 + i)) wr

/-- LV_REGION of a DWFETCH or DWPUT: its rows or its pages are not covered. -/
def State.regionFail (s : State) (rm : Room) (w : BitVec 128) : Bool :=
  let t := streamOf (rm.descOf (field w 32 11))
  unitOf w == 1 && (opcodeOf w == 1 || opcodeOf w == 2) && (rm.descErr s.tabs (field w 32 11) 2 w).isNone &&
    !((List.range t.nrows).all (fun i => s.covered (t.haddr + i * t.hstride) t.rlen t.dir) &&
      s.covered (t.haddr / 0x200000 * 0x200000) (0x200000 * t.npage) t.dir)

/-- What a command that has just started adds to the run: its failures of 0x0901 and 0x0A01, and, where a rule of it depends
on dynamic state, its removal from the bank uses (R398). -/
def VSim.note (x : VSim) (k : VCfg) (before : Room) (w : BitVec 128) : VSim :=
  let loc := (tagOf w).toNat
  let d := k.dynDesc before w
  let isDyn := d.1 || dynCount x.statVis w
  let keep (code : Nat) : Bool :=
    (code == 0x0701 && !d.2) || (!d.1 && (code == 0x0702 || code == 0x0705))
  let own := (if before.flagBad w && !isDyn then [(0x0901, loc, 0x10000)] else []) ++
    (if x.s.regionFail before w && !isDyn then [(0x0A01, loc, 0x10000)] else [])
  let ran := if [1, 5, 6].contains (unitOf w) then x.ran ++ [w] else x.ran
  if !isDyn then { x with fails := x.fails ++ own, ran := ran }
  else
    let found := (x.s.flt.queue.filter fun q => q.tag == tagOf w).filterMap fun q =>
      match reasonOf q.code.toNat with
      | some c => if keep c then some (c, loc, 0x20000) else none
      | none => none
    { x with
      ran := ran
      dyn := if x.dyn.contains loc then x.dyn else loc :: x.dyn
      fails := x.fails ++ found
      s := x.s.modRoom k.room fun rm => { rm with
        pan := { rm.pan with uses := rm.pan.uses.filter fun u => decide (u.word ≠ w) }
        out := { rm.out with lines := rm.out.lines.filter fun l => decide (l.word ≠ w) } } }

/-- The reports of the machine so far become failures. -/
def VSim.collect (x : VSim) : VSim :=
  let hits := x.s.flt.queue.filterMap fun q => (reasonOf q.code.toNat).map fun c =>
    (c, q.tag.toNat, if c = 0x0802 || c = 0x0805 then (q.body.getD 1 0).toNat else 0x10000)
  { x with fails := x.fails ++ hits, s := { x.s with flt := { x.s.flt with queue := [] } } }

/-- The head of a unit's queue, tried once. -/
def VSim.tryUnit (k : VCfg) (x : VSim) (u : Nat) : VSim :=
  match (x.s.room k.room).queue u with
  | [] => x
  | c :: t =>
    let s := unitStart k.room c x.s
    if ((s.room k.room).queue u).length = t.length then { x with s := s }.note k (x.s.room k.room) c.word else x

/-- The units whose head may start: Pantry control first, then in bundle order of the heads. -/
def VSim.unitOrder (k : VCfg) (x : VSim) : List Nat :=
  let key (u : Nat) : Nat := match (x.s.room k.room).queue u with
    | [] => 0x10000
    | c :: _ => (tagOf c.word).toNat
  2 :: [1, 3, 4, 5, 6].foldl (fun l u => (l.takeWhile fun y => key y ≤ key u) ++ [u] ++ (l.dropWhile fun y => key y ≤ key u)) []

/-- The sequencer commands of the bundle in issue; `fuel` bounds their number. -/
def VSim.runSeq (k : VCfg) : Nat → VSim → VSim
  | 0, x => x
  | fuel + 1, x => match (x.s.room k.room).seq.now with
    | [] => x
    | h :: _ => ({ x with s := seqStart k.room h.cmd x.s, stat := statAfter x.stat h.cmd.word }).runSeq k fuel

/-- Every predicate is true (R394). -/
def Room.allTrue (rm : Room) : Room :=
  let on (c : QCmd) : QCmd := { c with pred := true }
  { rm with
    queues := rm.queues.map fun (l : List QCmd) => l.map on
    seq := { rm.seq with now := rm.seq.now.map fun c => { c with cmd := on c.cmd } } }

/-- The issue of a bundle, unless a queue other than the Dumbwaiter's would overflow (0x0605). -/
def VSim.issue (k : VCfg) (x : VSim) : VSim :=
  let rm := x.s.room k.room
  let q := rm.seq
  let b := rm.prog.bundleAt q.bptr
  let due := q.issuing && decide (q.lastIssue + (if q.fresh then 0 else max b.delta 1) ≤ x.s.cyc k.room)
  if !due then x
  else if !(q.fetchBad rm.prog b) && (queueFull q.qdVis (b.cmds.filter fun c => unitOf c != 1)).isSome then
    { x with fails := x.fails ++ [(0x0605, (q.bptr + 8) / 8, 0x10000)], stop := true }
  else
    let s := (bundleIssue k.room x.s).modRoom k.room Room.allTrue
    { x with s := s }.runSeq k 4

/-- A Corridor line that comes in is written in this gc: its bank rules, and the conflict with an access of the Room, in
which the later-starting command offends (R415, R424, R431). -/
def VSim.incoming (k : VCfg) (x : VSim) : VSim :=
  let rm := x.s.room k.room
  let cyc := x.s.cyc k.room
  (k.come.filter fun c => c.1 + 6 == cyc).foldl (fun x c =>
    let l := c.2
    let clash := rm.pan.uses.filter fun u => decide (u.bank = bankOf l.line) &&
      (u.cyc == cyc || (partialWord l.mask && u.cyc + 1 == cyc))
    let bad := match rm.galFail l.line cyc with
      | some f => if f = fcPanOwner then [(0x0801, l)] else [(0x0803, l)]
      | none => []
    let lost := if clash.any fun u => decide (u.start ≤ l.start) then [(0x0802, l)] else []
    let mine := (clash.filter fun u => decide (l.start < u.start)).map fun u => (0x0802, (tagOf u.word).toNat, 0x10000)
    { x with inFails := x.inFails ++ bad ++ lost, fails := x.fails ++ mine }) x

/-- Watch units count as active until TIMEOUT + 3 (after R534). -/
def Latch.expire (l : Latch) (cyc : Nat) : Latch :=
  { l with watches := l.watches.map fun w => match w with
      | some t => if t.start + t.timeout + 3 < cyc then none else some t
      | none => none }

/-- Lines for the companion that leave its window (0x0A01). -/
def VSim.window (k : VCfg) (x : VSim) : VSim :=
  let rm := x.s.room k.room
  let cyc := x.s.cyc k.room
  let hits := rm.pend.filterMap fun p => match p.eff with
    | .depart d =>
      let outside := decide (d.addr < k.v.cmpBase) || decide (d.addr + 256 > k.v.cmpBase + k.v.cmpLen)
      if d.tgt == 3 && p.start == cyc && outside then some (0x0A01, (tagOf p.word).toNat, 0x10000) else none
    | _ => none
  { x with fails := x.fails ++ hits }

/-- One gc of a run. [DESIGN CHOICE: log 52.] -/
def VSim.gc (k : VCfg) (x : VSim) : VSim :=
  let r := k.room
  let w := wingOf r
  let s := actRoom r (showDue r (refreshRoom r x.s))
  let x := { x with
    s := s.modWing w fun g => { g with corr := [] }
    out := x.out ++ (s.wing w).corr, statVis := x.stat, owned := x.owned ||| (s.room r).pan.own }.collect
  let x := x.issue k
  let x := (x.unitOrder k).foldl (VSim.tryUnit k) x
  let x := (([1, 1, 1, 3].foldl (VSim.tryUnit k) x).incoming k).window k
  let x := x.collect
  let st := (x.s.room r).seq.structStop
  let s := x.s.modRoom r fun rm => { rm with
    latch := rm.latch.expire (x.s.cyc r + 1), out := { rm.out with buf := [], trk := [], credits := [] } }
  { x with
    s := s.modWing w fun g => { g with acyc := g.acyc + 1, periods := g.periods + 1 }
    fails := if st then x.fails ++ [(0x0601, ((x.s.room r).seq.offNow + 8) / 8, 0x10000)] else x.fails
    stop := x.stop || st }

/-- Has the segment completed: every command has started and reached the end of its DUR (R60)? -/
def VSim.past (k : VCfg) (x : VSim) : Bool :=
  let rm := x.s.room k.room
  !rm.seq.issuing && rm.seq.now.isEmpty && rm.queues.toList.all List.isEmpty && decide (rm.seq.doneAt ≤ x.s.cyc k.room)

/-- A run up to its end, at most `fuel` gc. -/
def VSim.run (k : VCfg) : Nat → VSim → VSim
  | 0, x => x
  | fuel + 1, x => if x.stop || x.past k then x else (x.gc k).run k fuel

/-- The Room and its Wing as a run begins: no other Room, nothing in flight; counters not yet set are the free values of the
model. Nothing is held at a hand-off line, as after a STOP (R393). -/
def vstart (k : VCfg) (p : Prog) (cm : Comm) (off : Nat) (e : VEntry) (s : State) : VSim :=
  let z := Room.reset true
  let sc : Vector (BitVec 64) 16 := Vector.ofFn fun i => Config.dynCounter i.val
  let rm := { z with
    prog := p, comm := cm, stopped := true
    seq := { z.seq with issuing := true, bptr := off, sc := sc, scVis := sc }
    hatch := { z.hatch with st := e.hatch }, mx := { z.mx with act := e.act, shd := e.shd }
    pan := { z.pan with own := e.own, gated := e.gated, tags := e.tags }
    latch := { z.latch with words := Vector.replicate 48 (BitVec.ofNat 64 (pack [(8, 1, 1), (16, 16, 0xFFFF)])) } }
  let w := wingOf k.room
  let s := { s with
    rooms := (Vector.replicate 96 (Room.reset false)).set k.room.val rm
    smoke := { s.smoke with debug := false }, mir := { s.mir with enable := false }, flt := { s.flt with queue := [] }
    job := { s.job with lrooms := k.v.lrooms, runProfile := BitVec.ofNat 4 k.v.profile } }
  let wing (g : Wing) : Wing := { g with
    clockOn := true, thr := false, held := false, halted := false, fstop := none, frzOn := false, corr := [], acyc := 0, ac0 := 0,
    periods := 0, per0 := 0 }
  { s := s.modWing w wing, stat := 0, statVis := 0, dyn := [], ran := [], out := [], fails := [], inFails := [], owned := e.own,
    stop := false }

/-- The outcome of a run: its segment and entry state, its failures with those of timing, and its entry state for the
next segment. -/
structure VRun where
  seg  : Nat
  ent  : VEntry
  sim  : VSim
  late : Bool
  exit : Option VEntry
  deriving Repr

/-- [DESIGN CHOICE: log 52.] -/
def vrun (k : VCfg) (p : Prog) (cm : Comm) (s : State) (seg : Nat) (e : VEntry) : VRun :=
  let g := p.segs.getD seg { off := 0, budget := 0, newM := 0 }
  let x := (vstart k p cm g.off e s).run k (g.budget + 1)
  let fin := x.past k && !x.stop
  let s := showDue k.room x.s
  { seg := seg, ent := e, sim := x, late := !x.stop && !fin,
    exit := if fin then some ((s.room k.room).exitState (s.cyc k.room)) else none }

/-! ## Every entry state -/

/-- The runs of a Room: entry states are followed along the edges of every TEND, at most 16 to a segment; with them the
segments that have more (0x0606). [DESIGN CHOICE: log 52.] -/
def explore (mk : Nat → VEntry → VRun) (nexts : Nat → List Nat) :
    Nat → List (Nat × VEntry) → List (Nat × VEntry) → List VRun → List Nat → List VRun × List Nat
  | 0, _, _, runs, past => (runs, past)
  | _, [], _, runs, past => (runs, past)
  | fuel + 1, t :: todo, seen, runs, past =>
    let run := mk t.1 t.2
    let step (a : List (Nat × VEntry) × List (Nat × VEntry) × List Nat) (n : Nat) :
        List (Nat × VEntry) × List (Nat × VEntry) × List Nat :=
      match run.exit with
      | none => a
      | some e =>
        let mine := a.2.1.filter fun x => x.1 == n
        if mine.any fun x => x.2.same e then a
        else if mine.length ≥ 16 then (a.1, a.2.1, if a.2.2.contains n then a.2.2 else a.2.2 ++ [n])
        else (a.1 ++ [(n, e)], a.2.1 ++ [(n, e)], a.2.2)
    let a := (nexts t.1).foldl step (todo, seen, past)
    explore mk nexts fuel a.1 a.2.1 (runs ++ [run]) a.2.2

/-! ## A Room -/

/-- What the verifier knows of a Room: its program with numbered commands, its commands, its bundles, its runs, and the
segments with too many entry states. -/
structure VRoom where
  lroom : Nat
  prog  : Prog
  cmds  : List VCmd
  walk  : List (List (Nat × Bundle))
  nexts : List (List Nat)
  runs  : List VRun
  past  : List Nat
  deriving Repr

def vcfg (v : VImage) (lroom : Nat) (cs : List VCmd) (come : List (Nat × CorLine)) : VCfg :=
  { room := roomIdOf lroom, mask := dsetMask cs, v := v, come := come }

def vroom (v : VImage) (s : State) (lroom : Nat) : VRoom :=
  let p0 := (s.room (roomIdOf lroom)).prog
  let ws := p0.walk
  let cs := vcmdsOf ws
  let p := p0.numbered cs
  let cm := match v.comm lroom with
    | some bs => commOf bs
    | none => Comm.reset
  let nx := ws.map fun w => nextsOf w p0.segs.length
  let mk := vrun (vcfg v lroom cs []) p cm s
  let n := p0.segs.length
  let x := explore mk (fun g => nx.getD g []) (16 * n + 1) [(0, VEntry.loaded)] [(0, VEntry.loaded)] [] []
  let left := (List.range n).filter fun g => !(x.1.any fun u => u.seg == g)
  { lroom := lroom, prog := p, cmds := cs, walk := ws, nexts := nx, runs := x.1 ++ left.map (mk · VEntry.loaded), past := x.2 }

/-- Is a segment reached from segment 0? A segment that is not has no entry state, and the rules of 0x0708, 0x0709, 0x070B,
0x0801 and 0x0803 are not checked in it. -/
def VRoom.reached (q : VRoom) (seg : Nat) : Bool :=
  seg == 0 || q.runs.any fun u => u.exit.isSome && u.seg != seg && (q.nexts.getD u.seg []).contains seg

def VRoom.dyn (q : VRoom) : List Nat := (q.runs.flatMap fun u => u.sim.dyn).eraseDups

/-- A failure at a command number. -/
def VRoom.failAt (q : VRoom) (code loc : Nat) : List VFail :=
  ((q.cmds.find? fun c => c.loc == loc).map fun c =>
    { code := code, lroom := q.lroom, seg := c.seg, boff := c.boff, pos := c.pos, cmd := c.cmd : VFail }).toList

/-- A failure of a segment. -/
def VRoom.segFail (q : VRoom) (code seg : Nat) : VFail :=
  { code := code, lroom := q.lroom, seg := seg, boff := (q.prog.segs.getD seg { off := 0, budget := 0, newM := 0 }).off, pos := 0,
    cmd := 0 }

/-- The failures of the runs of a Room. -/
def VRoom.runFails (q : VRoom) : List VFail :=
  let dyn := q.dyn
  q.runs.flatMap fun u =>
    (if u.late then [q.segFail 0x0604 u.seg] else []) ++
    u.sim.fails.flatMap fun f =>
      let counted := f.1 ≥ 0x0701 && (dyn.contains f.2.1 && f.2.2 != 0x20000 || dyn.contains f.2.2)
      let entry := [0x0708, 0x0709, 0x070B, 0x0801, 0x0803].contains f.1 && !(q.reached u.seg)
      if counted || entry then [] else q.failAt f.1 f.2.1

/-! ## Latch balance (0x0607) -/

/-- An increment by a command that has started: latch, generation, count (R445, R498, R527). -/
def Room.incOf (rm : Room) (w : BitVec 128) : Option (Nat × Nat × Int) :=
  let op := opcodeOf w
  match unitOf w with
  | 1 => if op != 3 && bit w 45 then some (field w 48 6, field w 56 8, 1) else none
  | 5 => if op = 3 && (routeOf (rm.descOf (field w 32 11))).tgt == 0 then
      some (field w 80 6, field w 88 8, signed (field w 96 16) 16) else none
  | 6 => if op = 2 || op = 4 then some (field w 32 6, field w 40 8, signed (field w 64 16) 16) else none
  | _ => none

/-- The TAG that the image gives a command that has run. -/
def VRoom.tagAt (q : VRoom) (w : BitVec 128) : Nat :=
  ((q.cmds.find? fun c => c.loc == (tagOf w).toNat).map fun c => (tagOf c.cmd).toNat).getD 0x10000

/-- The remote arrivals declared for a tag (R569). -/
def declared (decls : List (Nat × Nat)) (tag : Nat) : Nat := ((decls.filter fun d => d.1 == tag).map (·.2)).sum

/-- The balance of every LINIT of a Room: its segment's increments and those of segments that set no such generation, with
the declared remote arrivals, against the expected count. -/
def VRoom.balance (q : VRoom) (decls : List (Nat × Nat)) (rm : Room) : List VFail :=
  let segs := (List.range q.walk.length).map fun g => ((q.runs.find? fun u => u.seg == g).map fun u => u.sim.ran).getD []
  let isInit (w : BitVec 128) : Bool := unitOf w == 6 && opcodeOf w == 1
  let names (l g : Nat) (w : BitVec 128) : Bool := field w 32 6 == l && field w 40 8 == g
  let incs (l g : Nat) (ws : List (BitVec 128)) : Int :=
    ws.foldl (fun n w => match rm.incOf w with
      | some i => if i.1 = l && i.2.1 = g then n + i.2.2 else n
      | none => n) 0
  (indexed segs).flatMap fun sg =>
    let inits := sg.2.filter isInit
    inits.flatMap fun w =>
      let l := field w 32 6
      let g := field w 40 8
      let same := inits.filter (names l g)
      let others := (indexed segs).filter fun t => t.1 != sg.1 && !(t.2.any fun x => isInit x && names l g x)
      let here := incs l g sg.2 + others.foldl (fun n t => n + incs l g t.2) 0
      let want : Int := same.foldl (fun (n : Int) (x : BitVec 128) => n + (field x 64 16 : Nat)) 0
      let far := (same.map fun x => declared decls (q.tagAt x)).sum
      if here + (far : Int) ≠ want || here > want then q.failAt 0x0607 (tagOf w).toNat else []

/-! ## Mailslots (0x0608, 0x0609) -/

/-- [DESIGN CHOICE: log 53.] -/
def commFails (v : VImage) (own : Nat) (q : VRoom) : List VFail :=
  match v.comm q.lroom with
  | none => []
  | some bs =>
    let rings := commRingEntries bs
    let owned := q.runs.foldl (fun m u => m ||| u.sim.owned) 0#12
    let fail (code : Nat) : VFail := { code := code, lroom := q.lroom, seg := 0, boff := 0, pos := 0, cmd := 0 }
    let bad := commBad bs || ringsOverlap rings || rings.any fun b => (ringBanks b).any fun n => bit owned n
    let short := rings.any fun b => decide (256 * recBits b 24 9 < ringNeed b)
    let past := (commSendEntries bs).any fun b =>
      let tgt := recBits b 0 3
      let room := if tgt = 0 then q.lroom else recBits b 8 7
      (tgt == 0 || (tgt == 2 && recBits b 16 12 == own)) && match v.comm room with
        | some cs => (commRingEntries cs).any fun g => recBits g 0 2 == recBits b 4 2 && decide (recBits b 32 13 > 16 * recBits g 24 9)
        | none => false
    (if bad then [fail 0x0608] else []) ++ if short || past then [fail 0x0609] else []

/-! ## The Corridor (0x0804, and the banks of the destination) -/

/-- The segments that two Rooms can run in one tick, from segment 0 of both. [DESIGN CHOICE: log 53.] -/
def coincide (na nb : List (List Nat)) : Nat → List (Nat × Nat) → List (Nat × Nat) → List (Nat × Nat)
  | 0, _, seen => seen
  | _, [], seen => seen
  | fuel + 1, t :: todo, seen =>
    let new := ((na.getD t.1 []).flatMap fun a => (nb.getD t.2 []).map fun b => (a, b)).filter fun p => !(seen.contains p)
    coincide na nb fuel (todo ++ new.eraseDups) (seen ++ new.eraseDups)

def VRoom.with_ (a b : VRoom) : List (Nat × Nat) :=
  coincide a.nexts b.nexts (a.nexts.length * b.nexts.length + 1) [(0, 0)] [(0, 0)]

/-- The lines that the runs of a segment send into the Corridor, without those of commands that are not checked. -/
def VRoom.sends (q : VRoom) (seg : Nat) : List CorLine :=
  let dyn := q.dyn
  ((q.runs.filter fun u => u.seg == seg).flatMap fun u => u.sim.out.filter fun l => !(dyn.contains (tagOf l.word).toNat)).eraseDups

/-- Where a line is in each gc from its entry: its claims, and last its arrival; `fuel` bounds the hops. -/
def CorLine.claims : Nat → CorLine → List CorLine
  | 0, _ => []
  | fuel + 1, l => if l.arrived then [l] else l :: l.hop.claims fuel

/-- The failure of the line that is dropped when two lines meet (R351). -/
def corridorMeet (x y : VRoom × CorLine) : List VFail :=
  (x.2.claims 16).flatMap fun a => (y.2.claims 16).flatMap fun b =>
    let meet := a.at0 == b.at0 && (if a.arrived then b.arrived && a.dst == b.dst else !b.arrived && a.link == b.link)
    if !meet then [] else if a.turn ≤ b.turn then y.1.failAt 0x0804 (tagOf b.word).toNat else x.1.failAt 0x0804 (tagOf a.word).toNat

/-- The Corridor conflicts between two Rooms, or of a Room with itself. [DESIGN CHOICE: log 53.] -/
def corridorFails (a b : VRoom) : List VFail :=
  if wingOf (roomIdOf a.lroom) ≠ wingOf (roomIdOf b.lroom) then []
  else if a.lroom = b.lroom then (List.range a.walk.length).flatMap fun g =>
    (indexed (a.sends g)).flatMap fun x => ((a.sends g).drop (x.1 + 1)).flatMap fun y => corridorMeet (a, x.2) (a, y)
  else (a.with_ b).flatMap fun p => (a.sends p.1).flatMap fun x => (b.sends p.2).flatMap fun y => corridorMeet (a, x) (b, y)

/-- The gc in which a line reaches its destination. -/
def CorLine.reach (l : CorLine) : Nat := ((l.claims 16).getLastD l).at0

/-- The failures of the lines that come to a Room, from every Room of its Wing: the Room's runs with those lines. [DESIGN CHOICE: log 53.] -/
def landingFails (v : VImage) (s : State) (all : List VRoom) (q : VRoom) : List VFail :=
  let cm := match v.comm q.lroom with
    | some bs => commOf bs
    | none => Comm.reset
  all.flatMap fun a =>
    if a.lroom = q.lroom || wingOf (roomIdOf a.lroom) ≠ wingOf (roomIdOf q.lroom) then []
    else (a.with_ q).flatMap fun p =>
      let come := ((a.sends p.1).filter fun l => decide (l.dst = roomIdOf q.lroom)).map fun l => (l.reach, l)
      if come.isEmpty then []
      else (q.runs.filter fun u => u.seg == p.2).flatMap fun u =>
        let x := (vrun (vcfg v q.lroom q.cmds come) q.prog cm s u.seg u.ent).sim
        (x.inFails.flatMap fun f => a.failAt f.1 (tagOf f.2.word).toNat) ++
          (x.fails.filter fun f => f.1 == 0x0802 && f.2.2 == 0x10000).flatMap fun f => q.failAt f.1 f.2.1

/-! ## Frequency and budgets (0x0602, 0x0603) -/

/-- The lowest-numbered declared logical Room of a Wing. -/
def firstRoom (v : VImage) (w : WingId) : Option Nat := (List.range v.lrooms).find? fun r => wingOf (roomIdOf r) == w

/-- The ratios a Wing can reach, and whether it can reach a frequency-change tick (after R399). -/
def ratioSet (v : VImage) (all : List VRoom) (w : WingId) : List Nat × Bool :=
  let news := match (firstRoom v w).bind fun r => all.find? fun q => q.lroom == r with
    | some q => (q.prog.segs.map Seg.newM).filter (· != 0)
    | none => []
  (v.ratios.getD w.val 0 :: news, !news.isEmpty)

/-- The largest budget that ends above the landing, in gc. -/
def budgetCap (tickRc m : Nat) (change : Bool) : Nat := tickRc * m - cdiv (tickRc * m) 50 - (if change then 401 * m else 0)

/-- [DESIGN CHOICE: log 53.] -/
def budgetFails (v : VImage) (s : State) (all : List VRoom) (q : VRoom) : List VFail :=
  let w := wingOf (roomIdOf q.lroom)
  let rs := ratioSet v all w
  let m := rs.1.foldl min (rs.1.headD 0)
  let first := firstRoom v w == some q.lroom
  (indexed q.prog.segs).flatMap fun g =>
    (if g.2.newM ≠ 0 && (!first || (g.1 == 0 && g.2.newM != v.ratios.getD w.val 0)) then [q.segFail 0x0602 g.1] else []) ++
    (if g.2.budget > budgetCap s.tickRc m rs.2 then [q.segFail 0x0603 g.1] else [])

/-! ## The verifier -/

/-- The order of R400 as one number. -/
def VFail.key (f : VFail) : Nat := f.code * 2 ^ 48 + f.lroom * 2 ^ 40 + f.seg * 2 ^ 24 + f.boff * 4 + f.pos

def insertFail (f : VFail) : List VFail → List VFail
  | [] => [f]
  | g :: t => if f = g then g :: t else if f.key ≤ g.key then f :: g :: t else g :: insertFail f t

/-- The failures in the order of R400, and UNCHECKED. [DESIGN CHOICE: log 52.] -/
def verifyImage (v : VImage) (s : State) : List VFail × Nat :=
  let all := (List.range v.lrooms).map (vroom v s)
  let one (q : VRoom) : List VFail :=
    staticFails q.lroom (s.room (roomIdOf q.lroom)).prog q.walk ++ q.past.map (q.segFail 0x0606) ++ q.runFails ++
      q.balance (match v.comm q.lroom with
        | some bs => commDecls bs
        | none => []) { Room.reset true with prog := q.prog } ++ commFails v s.ownRank.toNat q ++ budgetFails v s all q ++ landingFails v s all q
  let pairs := (indexed all).flatMap fun a => (all.drop a.1).flatMap fun b => corridorFails a.2 b
  ((all.flatMap one ++ pairs).foldl (fun l f => insertFail f l) [], (all.map fun q => q.dyn.length).sum)

end Sys2Proof.Machine
end

