-- ==== Sys2Proof/Machine/Loader.lean ====
section
/-! DEFINITION. The loader (R371 to R392, R402 to R409, R503 to R509, R719 to R721, R841) and the LOAD card. -/

namespace Sys2Proof.Machine

/-! ## The manifest (R372, R373) -/

/-- A directory entry. -/
structure Sect where
  idx    : Nat
  typ    : Nat
  target : Nat
  off    : Nat
  len    : Nat
  dest   : Nat
  hash   : BitVec 512
  rsv    : Bool
  deriving DecidableEq, Repr, Inhabited

def parseSect (idx : Nat) (bs : Bytes) : Sect :=
  { idx := idx, typ := recBits bs 0 16, target := recBits bs 16 7, off := getLE bs 8 8, len := getLE bs 16 4,
    dest := getLE bs 24 8, hash := BitVec.ofNat 512 (getLE bs 32 64), rsv := recBits bs 23 41 != 0 || getLE bs 20 4 != 0 }

/-- The header and the directory, with the bytes that the signature covers. -/
structure Manifest where
  head   : Bytes
  sects  : List Sect
  signed : Bytes
  sig    : Bytes
  deriving Repr

def Manifest.profile (m : Manifest) : Nat := recBits m.head 48 4
def Manifest.lrooms (m : Manifest) : Nat := recBits m.head 56 7
def Manifest.tickRc (m : Manifest) : Nat := recBits m.head 64 20
def Manifest.ratio (m : Manifest) (w : Nat) : Nat := recBits m.head (88 + 8 * w) 5
def Manifest.keyIdx (m : Manifest) : Nat := getLE m.head 15 1
def Manifest.imageId (m : Manifest) : Nat := getLE m.head 16 8
def Manifest.hbmNeed (m : Manifest) : Nat := getLE m.head 36 8
def Manifest.cmpNeed (m : Manifest) : Nat := getLE m.head 44 8

/-- NSECT and IMG_LEN of a header. -/
def headSects (h : Bytes) : Nat := getLE h 24 2
def headLen (h : Bytes) : Nat := getLE h 28 8

/-- Is a reserved bit of the header set? -/
def headReserved (h : Bytes) : Bool :=
  recBits h 52 4 != 0 || recBits h 63 1 != 0 || recBits h 84 4 != 0 || recBits h 93 3 != 0 || recBits h 101 3 != 0 ||
    recBits h 109 3 != 0 || recBits h 117 3 != 0 || getLE h 26 2 != 0 || getLE h 52 76 != 0

/-- The length of a manifest: header, directory and signature, padded (R377). -/
def manifestLen (n : Nat) : Nat := 256 * cdiv (128 + 96 * n + 4627) 256

/-- The types whose sections are per Room. -/
def perRoom (t : Nat) : Bool := t == 1 || t == 2 || t == 3 || t == 10

/-- Does a directory entry break R371, R373, R374, R376, R378 or R505 on its own? -/
def Sect.bad (d : Sect) (mend lrooms imgLen need : Nat) : Bool :=
  let data := if d.typ = 9 then d.len - 1792 else d.len
  d.rsv || d.typ == 0 || decide (d.typ > 10) || d.off % 256 != 0 || decide (d.off < mend) || decide (d.off + d.len > imgLen) ||
    (if d.typ = 8 || d.typ = 9 then d.dest % 4096 != 0 || decide (d.dest + data > need) else d.dest != 0) ||
    (d.typ == 9 && (decide (d.len < 1792) || (d.len - 1792) % 4096 != 0)) ||
    (d.typ == 7 && (d.len % 16 != 0 || d.len == 0 || decide (d.len > 1024))) || (d.typ == 6 && d.len % 8 != 0) ||
    (perRoom d.typ && decide (d.target ≥ lrooms)) || (d.typ == 6 && d.target != 0x7F && decide (d.target ≥ lrooms)) ||
    (d.typ == 4 && decide (d.target > 63)) || (d.typ == 5 && decide (d.target > 31))

/-- Two sections that share a byte, or two of a type and target of which R376 allows one. -/
def Sect.clash (a b : Sect) : Bool :=
  (a.len != 0 && b.len != 0 && decide (a.off < b.off + b.len) && decide (b.off < a.off + a.len)) ||
    (a.typ == b.typ && (a.typ == 7 || ((a.typ ≤ 6 || a.typ == 10) && a.target == b.target)))

/-- Does some pair of the directory clash? -/
def clashes : List Sect → Bool
  | [] => false
  | a :: t => t.any a.clash || clashes t

/-- The directory rules (R376): every Room has its three sections, and there is a REGION section. [DEDUCED: log 51.] -/
def complete (ds : List Sect) (lrooms : Nat) : Bool :=
  ds.any (fun d => d.typ == 7) && (List.range lrooms).all fun r =>
    [1, 2, 3].all fun t => ds.any fun d => d.typ == t && d.target == r

/-! ## Reading the staging copy (R392, R841) -/

/-- The source word of the loader's reads (R748). -/
def State.loaderSrc (s : State) : BitVec 64 := s.srcOf 12 0x7F 0 0

/-- `n` bytes of the staging copy, up to the first line that comes with an uncorrectable error. -/
def stageRead (m : Mem) (a n : Nat) (s : State) : Bytes × Bool × State :=
  (linesOf a n).foldl (fun (x : Bytes × Bool × State) l =>
    if !x.2.1 then x
    else
      let lo := max a (256 * l)
      let hi := min (a + n) (256 * (l + 1))
      let c := x.2.2.readCheck m lo (hi - lo) s.loaderSrc
      if c.1 then (x.1, false, c.2) else (x.1 ++ m.bytes lo (hi - lo), true, c.2)) ([], true, s)

/-- Load step 2: the manifest, or the reason code; with the IMAGE_ID once it is read. [DEDUCED: log 51.] -/
def readManifest (m : Mem) (stg : Nat) (s : State) : (Nat ⊕ Manifest) × State :=
  let h := stageRead m stg 128 s
  if !h.2.1 then (.inl 0x0104, h.2.2)
  else
    let hd := h.1
    let n := headSects hd
    let imgLen := headLen hd
    let mend := manifestLen n
    let s := { h.2.2 with thr := { h.2.2.thr with load := { h.2.2.thr.load with
      status := setField h.2.2.thr.load.status 128 64 (getLE hd 16 8) } } }
    if getLE hd 0 4 = 0x374E584D then (.inl 0x0102, s)
    else if getLE hd 0 4 ≠ 0x394E584D || getLE hd 4 2 ≠ 1 then (.inl 0x0101, s)
    else if headReserved hd || n = 0 || n > 1024 || decide (mend > imgLen) || decide (stg + imgLen > hbmTop) then (.inl 0x0103, s)
    else
      let x := stageRead m (stg + 128) (mend - 128) s
      if !x.2.1 then (.inl 0x0104, x.2.2)
      else
        let dir := slice x.1 0 (96 * n)
        let ds := (List.range n).map fun i => parseSect i (slice dir (96 * i) 96)
        let man : Manifest :=
          { head := hd, sects := ds, signed := hd ++ dir, sig := slice x.1 (96 * n) 4627 }
        let pad := x.1.drop (96 * n + 4627)
        if man.hbmNeed % pageSize ≠ 0 || man.cmpNeed % 256 ≠ 0 || pad.any (· != 0#8) ||
            ds.any (fun d => d.bad mend man.lrooms imgLen man.hbmNeed) || clashes ds || !(complete ds man.lrooms) then
          (.inl 0x0103, x.2.2)
        else (.inr man, x.2.2)

/-! ## Steps 3 to 5 -/

/-- Does the DVFS table hold a ratio? -/
def State.hasRatio (s : State) (m : Nat) : Bool := s.thr.boot.img.dvfs.any fun e => field e 0 5 == m

/-- The lowest run of free pages below and above the staging copy (R387). -/
def allocate (pages s0 s1 : Nat) : Option Nat :=
  let top := hbmTop / pageSize
  if pages ≤ min s0 top then some 0 else if s1 + 1 + pages ≤ top then some (s1 + 1) else none

/-- Steps 3, 4 and 5: the reason code, or the first page of the allocation. -/
def fitsLoad (man : Manifest) (stg cmpLen : Nat) (s : State) : Nat ⊕ Nat :=
  match s.thr.boot.img.keys[man.keyIdx]? with
  | none => .inl 0x0201
  | some key =>
    if !(s.granted 5 man.keyIdx rSign) then .inl 0x0201
    else if !(Config.mldsaVerify key man.signed [] man.sig) then .inl 0x0202
    else if man.profile = 0 || man.profile > (if s.thr.pwr.stepB0 then 2 else 1) then .inl 0x0301
    else if man.lrooms = 0 || man.lrooms > s.enabledRooms then .inl 0x0302
    else if man.tickRc ≠ s.tickRc then .inl 0x0303
    else if !([0, 1, 2, 3].all fun w => s.hasRatio (man.ratio w)) then .inl 0x0304
    else match allocate (man.hbmNeed / pageSize) (stg / pageSize) ((stg + headLen man.head - 1) / pageSize) with
      | none => .inl 0x0501
      | some p => if man.cmpNeed > cmpLen || (man.cmpNeed ≠ 0 && !s.thr.pwr.palbo) then .inl 0x0502 else .inr p

/-! ## Step 6: the sections -/

/-- What step 6 has gathered: tables to write at step 10, relocation sections, COMM sections. -/
structure Gathered where
  ptabs  : List (Nat × PTable)
  ctabs  : List (Nat × CTable)
  relocs : List (Nat × Bytes)
  comms  : List (Nat × Bytes)
  deriving Repr, Inhabited

def State.modLoad (s : State) (f : Loader → Loader) : State := { s with thr := { s.thr with load := f s.thr.load } }

/-- A page that an HWRAP section writes. -/
def State.sealPage (s : State) (page : Nat) : State :=
  let add (b : Bin) : Bin := if b.sealed_.contains page then b else { b with sealed_ := b.sealed_ ++ [page] }
  s.modLoad fun l => { l with bin := l.bin.map add }

/-- The key pair of a wrapped-key block (R719, R720). [PRESUMED: log 6.] -/
def State.unwrapKey (s : State) (blk : Bytes) (imageId : Nat) : Option Bytes :=
  let b := s.thr.boot
  if !b.idOk || getLE blk 0 4 ≠ 0x4B57584D || getLE blk 4 2 ≠ 1 || getLE blk 6 2 ≠ 0 || getLE blk 1712 80 ≠ 0 ||
      getLE blk 8 64 ≠ (Config.sha3 b.ek).toNat then none
  else
    let k := Config.mlkemDecaps b.dk (slice blk 72 1568)
    let kek := Config.shake (k ++ ascii "MXN9-WRAP" ++ leBytes 8 imageId) 32
    match Config.kwUnwrap kek (slice blk 1640 72) with
    | some pair => if slice pair 0 32 = slice pair 32 32 then none else some pair
    | none => none

/-- The data units of a ciphertext, decrypted into the allocation (R504, R506, R509). [PRESUMED: log 6.] -/
def decryptUnits (keys : Bytes) (base dest : Nat) (ct : Bytes) (s : State) : State :=
  (List.range (ct.length / 4096)).foldl (fun s u =>
    let a := base + dest + 4096 * u
    let plain := slice (Config.xtsDecrypt keys ((dest + 4096 * u) / 4096) (slice ct (4096 * u) 4096)) 0 4096
    let s := { s with mem := s.mem.writeHbm a plain }
    (s.modCellar (stackOf a / 2) fun c => { c with mudUnits := satAdd c.mudUnits 1 }).sealPage (a / pageSize)) s

/-- An HWRAP section: key block, then ciphertext: its bytes read, the reason code if it fails, the state. -/
def hwrapSection (m : Mem) (a base imageId : Nat) (d : Sect) (s : State) : Bytes × Option Nat × State :=
  let k := stageRead m a 1792 s
  if !k.2.1 then (k.1, some 0x0104, k.2.2)
  else
    let note (code : Nat) (s : State) : State :=
      s.gbPush 0x0E 0 0 1 (packBytes 12 [(0, 16, d.idx), (16, 16, code), (32, 64, d.dest)])
    match s.unwrapKey k.1 imageId with
    | none => (k.1, some 0x0204, note 0x0204 k.2.2)
    | some keys =>
      let c := stageRead m (a + 1792) (d.len - 1792) (note 0 k.2.2)
      (k.1 ++ c.1, if c.2.1 then none else some 0x0104, decryptUnits keys base d.dest c.1 c.2.2)

/-- Is a Room section beyond the limits of R374 (R841 item 1)? -/
def Sect.misfit (d : Sect) : Bool :=
  (d.typ == 1 && (d.len == 0 || d.len % 8 != 0 || decide (d.len > 8192))) || (d.typ == 2 && decide (d.len > 131072)) ||
    (d.typ == 3 && (d.len % 32 != 0 || decide (d.len > 65536)))

/-- The segment table of a SEGTAB section (R375). [DEDUCED: log 51.] -/
def segTable (bs : Bytes) : List Seg :=
  (List.range (bs.length / 8)).map fun i =>
    let e := getLE bs (8 * i) 8
    { off := nbits e 0 17, budget := nbits e 32 32, newM := nbits e 17 5 }

/-- A section whose hash has passed is delivered. -/
def deliverSect (d : Sect) (bs : Bytes) (g : Gathered) (s : State) : Option Nat × Gathered × State :=
  let room (f : Prog → Prog) : State := s.modRoom (roomIdOf d.target) fun rm => { rm with prog := f rm.prog }
  match d.typ with
  | 1 =>
    let t := segTable bs
    if t.any fun e => e.newM != 0 && !(s.hasRatio e.newM) then (some 0x0304, g, s)
    else (none, g, room fun p => { p with segs := t })
  | 2 => (none, g, room fun p => { p with bundle := sputList [] 0 bs, bundleLen := bs.length })
  | 3 =>
    let es := (List.range (bs.length / 32)).map fun i => BitVec.ofNat 256 (getLE bs (32 * i) 32)
    (none, g, room fun p => { p with desc := sputList [] 0 es })
  | 4 => match parsePtab bs true with
    | some t => (none, { g with ptabs := g.ptabs ++ [(d.target, t)] }, s)
    | none => (some 0x0305, g, s)
  | 5 => match parseCtab bs true with
    | some t => (none, { g with ctabs := g.ctabs ++ [(d.target, t)] }, s)
    | none => (some 0x0305, g, s)
  | 6 => (none, { g with relocs := g.relocs ++ [(d.target, bs)] }, s)
  | 7 =>
    let es := (List.range (bs.length / 16)).map fun i => BitVec.ofNat 128 (getLE bs (16 * i) 16)
    (none, g, { s with mem := { s.mem with regions := es } })
  | 10 => (none, { g with comms := g.comms ++ [(d.target, bs)] }, s)
  | _ => (none, g, s)

/-- Load step 6 for one section (R841). -/
def readSection (m : Mem) (stg base imageId : Nat) (d : Sect) (g : Gathered) (s : State) : Option Nat × Gathered × State :=
  if d.misfit then (some 0x0306, g, s)
  else
    let x : Bytes × Option Nat × State :=
      if d.typ = 9 then hwrapSection m (stg + d.off) base imageId d s
      else
        let y := stageRead m (stg + d.off) d.len s
        let t := if d.typ = 8 then { y.2.2 with mem := y.2.2.mem.writeHbm (base + d.dest) y.1 } else y.2.2
        (y.1, if y.2.1 then none else some 0x0104, t)
    match x.2.1 with
    | some code => (some code, g, x.2.2)
    | none => if Config.sha3 x.1 ≠ d.hash then (some 0x0203, g, x.2.2) else deliverSect d x.1 g x.2.2

/-- Load step 6, in directory order. -/
def readSections (m : Mem) (stg base imageId : Nat) : List Sect → Gathered → State → Option Nat × Gathered × State
  | [], g, s => (none, g, s)
  | d :: t, g, s =>
    let x := readSection m stg base imageId d g s
    match x.1 with
    | some code => (some code, x.2)
    | none => readSections m stg base imageId t x.2.1 x.2.2

/-! ## Step 7: relocation (R379 to R383, R486 to R489) -/

/-- The field of a word after relocation; none when it overflows (R381). -/
def relocated {w : Nat} (e : BitVec w) (lsb len base : Nat) : Option (BitVec w) :=
  let v := field e lsb len + base
  if v ≥ 2 ^ len then none else some (setField e lsb len v)

/-- One relocation entry of a section. -/
def relocate (target : Nat) (e : Nat) (hbmBase cmpBase : Nat) (s : State) : Option Nat × State :=
  let tgt := nbits e 0 2
  let base := if nbits e 2 2 = 0 then hbmBase else cmpBase
  let idx := nbits e 4 14
  let lsb := nbits e 18 8
  let len := nbits e 26 6 + 1
  let lim := if tgt = 0 then 2048 else if tgt = 1 then s.mem.regions.length else if tgt = 2 then 16384 else 0
  let width := if tgt = 0 then 256 else if tgt = 1 then 128 else 64
  if nbits e 32 32 ≠ 0 || nbits e 2 2 > 1 || (tgt == 1) != (target == 0x7F) || decide (idx ≥ lim) || decide (lsb + len > width) then
    (some 0x0401, s)
  else
    let r := roomIdOf target
    let p := (s.room r).prog
    let put (q : Prog) : State := s.modRoom r fun rm => { rm with prog := q }
    if tgt = 1 then match relocated (s.mem.regions.getD idx 0) lsb len base with
      | some v => (none, { s with mem := { s.mem with regions := s.mem.regions.set idx v } })
      | none => (some 0x0402, s)
    else if tgt = 0 then match relocated (sget p.desc idx) lsb len base with
      | some v => (none, put { p with desc := sput p.desc idx v })
      | none => (some 0x0402, s)
    else match relocated (BitVec.ofNat 64 (leNat (sgetList p.bundle (8 * idx) 8))) lsb len base with
      | some v => (none, put { p with bundle := sputList p.bundle (8 * idx) (leBytes 8 v.toNat) })
      | none => (some 0x0402, s)

/-- Every relocation, in section order and entry order. -/
def relocateAll (hbmBase cmpBase : Nat) : List (Nat × Nat) → State → Option Nat × State
  | [], s => (none, s)
  | e :: t, s =>
    let x := relocate e.1 e.2 hbmBase cmpBase s
    match x.1 with
    | some code => (some code, x.2)
    | none => relocateAll hbmBase cmpBase t x.2

/-- Does a valid region entry break R489? [DEDUCED: log 51.] -/
def regionBad (e : BitVec 128) (hbmBase need cmpBase cmpLen : Nat) : Bool :=
  let lo := field e 0 48
  let hi := lo + 4096 * (field e 64 30 + 1)
  bit e 96 && (field e 50 14 != 0 || field e 94 2 != 0 || field e 97 31 != 0 || lo % 4096 != 0 ||
    !((decide (hbmBase ≤ lo) && decide (hi ≤ hbmBase + need)) || (decide (cmpBase ≤ lo) && decide (hi ≤ cmpBase + cmpLen))))

/-! ## Conversion (R402, R403, R407) -/

/-- A converted command. -/
def converted (c : BitVec 128) : BitVec 128 :=
  if unitOf c = 0 || unitOf c > 6 then BitVec.ofNat 128 (pack [(16, 16, (tagOf c).toNat)]) else setField c 12 4 8

/-- One conversion: the command is rewritten and logged. -/
def convertCmd (f : VFail) (s : State) : State :=
  let r := roomIdOf f.lroom
  let at0 := f.boff + 8 + 16 * f.pos
  let rcd := BitVec.ofNat 256 (pack [(0, 16, f.code), (16, 7, f.lroom), (24, 16, f.seg), (40, 17, f.boff), (57, 2, f.pos),
    (64, 16, (tagOf f.cmd).toNat), (80, 4, field f.cmd 12 4), (84, 4, unitOf f.cmd), (88, 8, opcodeOf f.cmd)])
  let s := s.modRoom r fun rm => { rm with prog := { rm.prog with
    bundle := sputList rm.prog.bundle at0 (leBytes 16 (converted f.cmd).toNat) } }
  s.modLoad fun l => { l with
    log := sput l.log l.logLen rcd, logLen := l.logLen + 1, status := setField l.status 48 16 (l.logLen + 1) }

/-- Failures of one command are one conversion, under the first code. -/
def firstOf (l : List VFail) : List VFail :=
  l.foldl (fun acc f => if acc.any fun g => g.lroom == f.lroom && g.boff == f.boff && g.pos == f.pos then acc else acc ++ [f]) []

/-- Class C of R401. -/
def VFail.command (f : VFail) : Bool := decide (f.code ≥ 0x0701)

/-- Where a failure lies, as THRESH_LOAD_STATUS shows it (R406). -/
def VFail.place (f : VFail) : BitVec 256 :=
  BitVec.ofNat 256 (pack [(24, 7, f.lroom), (32, 16, (tagOf f.cmd).toNat), (64, 16, f.seg), (96, 17, f.boff)])

/-! ## The load -/

/-- Step 10: the tables, the Rooms that stay on, their declarations, the Wings' ratios, and LOADED. [DEDUCED: log 19.] -/
def finishLoad (man : Manifest) (base : Nat) (g : Gathered) (s : State) : State :=
  let s := g.ptabs.foldl (fun s t => s.writePtab t.1 (some t.2) 1) s
  let s := g.ctabs.foldl (fun s t => s.writeCtab t.1 (some t.2) 1) s
  let s := g.comms.foldl (fun s c => s.modRoom (roomIdOf c.1) fun rm =>
    { rm with comm := { commOf c.2 with mslotSel := rm.comm.mslotSel, sendSel := rm.comm.sendSel, memSel := rm.comm.memSel } }) s
  let s := (allRooms.filter fun r => decide (r.val ≥ man.lrooms) && (s.room r).on).foldl
    (fun s r => s.setRoom r (Room.reset false)) s
  let s := allWings.foldl (fun s w => s.setRatio w (man.ratio w.val)) s
  let s := s.modLoad fun l => { l with status := setField (setField l.status 0 4 11) 192 64 (pageSize * base) }
  let job := { s.job with lrooms := man.lrooms, runProfile := BitVec.ofNat 4 man.profile, startSet := false, stopped := false }
  (({ s with job := job }).setState .loaded 0x01).loadEnd 0

/-- Steps 8 and 9, with the tables that the program will meet: the reason code and its place, or the state to go on with. -/
def verifyLoad (man : Manifest) (cmpBase cmpLen : Nat) (g : Gathered) (s : State) : (Nat × BitVec 256 × State) ⊕ State :=
  let seen := { s with tabs := { s.tabs with
    ptab := g.ptabs.foldl (fun v t => if h : t.1 < 64 then v.set t.1 (some t.2) else v) s.tabs.ptab
    ctab := g.ctabs.foldl (fun v t => if h : t.1 < 32 then v.set t.1 (some t.2) else v) s.tabs.ctab } }
  let v := verifyImage { lrooms := man.lrooms, profile := man.profile, ratios := [0, 1, 2, 3].map man.ratio, comms := g.comms, cmpBase := cmpBase,
                         cmpLen := cmpLen } seen
  let s := s.modLoad fun l => { l with status := setField l.status 80 16 (min v.2 0xFFFF) }
  let stop := if s.job.smode = 0 then v.1.head? else v.1.find? fun f => !f.command
  match stop with
  | some f => .inl (f.code, f.place, s)
  | none =>
    let cs := firstOf v.1
    if cs.length > 1024 then .inl (0x0F02, 0, s) else .inr (cs.foldl (fun s f => convertCmd f s) s)

/-- The whole load (R386): the reason code, zero at LOADED. -/
def loadImage (stg cmpBase cmpLen : Nat) (s : State) : Nat × State :=
  let s := (s.flushHbm).modLoad fun l => { l with status := BitVec.ofNat 256 (pack [(4, 3, s.job.smode.toNat)]), log := [],
                                                  logLen := 0 }
  let m := s.mem
  let x := readManifest m stg s
  match x.1 with
  | .inl code => (code, x.2.refuseLoad code 0)
  | .inr man =>
    match fitsLoad man stg cmpLen x.2 with
    | .inl code => (code, x.2.refuseLoad code 0)
    | .inr page =>
      let base := pageSize * page
      let bin : Bin :=
        { lrooms := man.lrooms, profile := man.profile, imageId := BitVec.ofNat 64 man.imageId, hash := Config.sha3 man.signed,
          base := base, pages := man.hbmNeed / pageSize, cmpBase := cmpBase, cmpLen := cmpLen, cmpNeed := man.cmpNeed,
          sealed_ := [], ratios := [0, 1, 2, 3].map man.ratio }
      let s := x.2.modLoad fun l => { l with bin := some bin }
      let y := readSections m stg base man.imageId man.sects default s
      match y.1 with
      | some code => (code, y.2.2.refuseLoad code 0)
      | none =>
        let es := y.2.1.relocs.flatMap fun t => (List.range (t.2.length / 8)).map fun i => (t.1, getLE t.2 (8 * i) 8)
        let z := relocateAll base cmpBase es y.2.2
        match z.1 with
        | some code => (code, z.2.refuseLoad code 0)
        | none =>
          if z.2.mem.regions.any fun e => regionBad e base man.hbmNeed cmpBase cmpLen then
            (0x0403, z.2.refuseLoad 0x0403 0)
          else match verifyLoad man cmpBase cmpLen y.2.1 z.2 with
            | .inl f => (f.1, f.2.2.refuseLoad f.1 f.2.1)
            | .inr s => (0, finishLoad man page y.2.1 s)

/-- CARD_LOAD: the PHASE 1 reply, LOADING and its records, the load, and the PHASE 2 reply. -/
def cardLoad (s : State) : State := s.takeCard 1 (fun _ => true) fun c s =>
  let s := (s.cardBegun c).setState .loading 0x01
  let s := s.gbPush 0x06 2 c.slot 1 (packBytes 24 [(0, 64, c.arg0.toNat), (64, 64, c.arg1.toNat), (128, 64, c.arg2.toNat)])
  let x := loadImage c.arg0.toNat c.arg1.toNat c.arg2.toNat s
  x.2.cardDone c x.1

/-! ## The command -/

def execCardLoad (s : State) : Host.Outcome State Fault Refusal := s.done (cardLoad s)

end Sys2Proof.Machine
end

