-- ==== Sys2Proof/Machine/Ticks.lean ====
section
/-! DEFINITION. The tick: completion of a Wing, frequency-change stops, boundaries and the start of a job (chapters 02, 03,
12, 13). -/

namespace Sys2Proof.Machine

/-! ## Completion of a schedule tick (R60, R306, R685) -/

/-- Has a Room nothing left of its schedule tick after the present gc? -/
def State.roomIdle (s : State) (r : RoomId) : Bool :=
  let rm := s.room r
  !rm.seq.issuing && rm.seq.now.isEmpty && rm.queues.toList.all (·.isEmpty) && decide (rm.seq.doneAt ≤ s.cyc r + 1)

/-- The Room whose last command of the tick ended latest, the lowest-numbered of several (R69). -/
def State.lastRoom (s : State) (w : WingId) : RoomId :=
  match (roomsOf w).filter s.roomUp with
  | [] => 0
  | r :: t => t.foldl (fun a b => if (s.room a).seq.doneAt < (s.room b).seq.doneAt then b else a) r

/-- The last Wing has completed: the progress words of the Doorplate, and the end of the schedule. [DEDUCED: log 72.] -/
def packageComplete (s : State) : State :=
  if !s.allComplete then s
  else
    let q := (s.room 0).seq
    let s := { s with thr := { s.thr with progress := q.get 15, prseq := q.get 14 } }
    if s.job.js = .running && (allRooms.filter s.roomUp).all (fun r => (s.room r).seq.ended) then s.setState .draining 0
    else s

/-- A Wing completes its schedule tick at a time, `gc` after the boundary that began it. [DEDUCED: log 11.] -/
def wingDone (w : WingId) (gc time : Nat) (s : State) : State :=
  let r := s.lastRoom w
  let tag := (s.room r).seq.doneTag
  packageComplete (s.modWing w fun g => { g with
    done := true, doneNow := true, doneGc := gc, doneTime := time, doneRoom := r.val, doneTag := tag })

/-- WING_TICK_COMPLETE: the present gc is that in which the last command of the tick ends. On a frequency-change tick the
stop begins with the next gc (R77, R95 step 1). [DEDUCED: log 14.] -/
def wingTickComplete (w : WingId) (s : State) : State :=
  let g := s.wing w
  let rs := (roomsOf w).filter s.roomUp
  if !g.active || g.done || g.fstop.isSome || !(s.advancing w) || !(rs.all s.roomIdle) then s
  else
    let s := wingFreezeEnd w s
    if g.newM = 0 then wingDone w (g.periods - g.per0 + 1) g.nextEdge s
    else
      let f : FreqStop := { gateAt := cdiv g.nextEdge RCQ, oldM := g.m, newM := g.newM, since := g.nextEdge }
      let s := rs.foldl (fun s r => flushLat r s) s
      let s := s.modWing w fun g => { g with fstop := some f, acyc := g.acyc + 1 }
      rs.foldl (fun s r => showDue r s) s

/-! ## Frequency-change stops (R94 to R100) -/

/-- Is a Wing clock gated in a frequency-change stop? -/
def Wing.gated (g : Wing) : Option FreqStop := if g.clockOn then none else g.fstop

/-- WING_CLOCK_RESTART: the clock restarts at the new ratio 400 rc after the gating edge, once the PLL has locked and the rail
is good; the Wing completes its tick with it, and applies a STOP that waits (R806). LOCK of WING_CLK_STATUS follows the PLL
(R124). [DESIGN CHOICE: log 18.] -/
def wingClockRestart (w : WingId) (locked : Bool) (s : State) : State :=
  let g := s.wing w
  match g.gated with
  | none => s
  | some f =>
    if g.halted || g.holdover || decide (s.now ≠ s.rc * RCQ) then s
    else if s.rc < f.gateAt + 400 then s.setWing w { g with lock := locked }
    else if !locked || !(bit s.thr.pwr.rg w.val) then s.setWing w { g with relSlow := true, lock := locked }
    else
      let len := s.rc - f.gateAt
      let p := RCQ / f.newM
      let counts := g.active && !g.done
      let s := s.setWing w { g with
        m := f.newM, period := p, nextEdge := s.now + p, clockOn := true, lock := true, fstop := none
        relSlow := g.relSlow || decide (400 < len)
        freqGc := if counts then satAdd g.freqGc (len * f.oldM) else g.freqGc }
      let s := if f.newM < f.oldM then s.askRail w f.newM else s
      let s := if counts then wingDone w (g.periods - g.per0 + len * f.oldM) s.now s else s
      let s := startPeriod w s
      if !g.stopPend then s
      else
        let s := stopWing w s
        if allWings.any (fun v => (s.wing v).stopPend) then s
        else match s.thr.stw.stwWait with
          | some x => ({ s with thr := { s.thr with stw := { s.thr.stw with stwWait := none } } }).stwRespond x.1 1 x.2 0 0 []
          | none => s

/-- WING_RELOCK_FAIL: the Wing remains stopped, and the fault makes the job FAULTED. -/
def wingRelockFail (w : WingId) (s : State) : State :=
  let g := s.wing w
  match g.gated with
  | none => s
  | some f =>
    if g.halted || decide (s.rc < f.gateAt + 2000) then s
    else (s.setWing w { g with halted := true }).raise 0x1002 2 5 w.val 0
      [BitVec.ofNat 64 f.oldM, BitVec.ofNat 64 f.newM, BitVec.ofNat 64 (s.rc - f.gateAt)]

/-! ## Freeze limits (R357) -/

/-- The number and the tag of a freeze condition (R353). -/
def Frz.number : Frz → Nat × BitVec 16
  | .line t _ _ => (1, t)
  | .queue t _ => (2, t)
  | .depart t => (3, t)
  | .credit t _ => (4, t)

/-- FREEZE_TIMEOUT: one record for each Room that holds a condition. -/
def freezeTimeout (w : WingId) (s : State) : State :=
  let g := s.wing w
  if !g.frzOn || g.frzRep || !(s.frozenW w) || decide (s.now < g.frzSince + s.freezeLimit * RCQ) then s
  else
    let s := s.modWing w fun g => { g with frzRep := true }
    (roomsOf w).foldl (fun s r => match (s.room r).frz with
      | [] => s
      | f :: _ => s.report
          { code := 0x1103#16, cls := 1#2, lroom := BitVec.ofNat 7 r.val, wing := BitVec.ofNat 2 w.val, src := 5#4,
            tag := f.number.2, body := [BitVec.ofNat 64 f.number.1, BitVec.ofNat 64 ((s.now - g.frzSince) / RCQ)], lost := false }) s

/-! ## Step 2 of a boundary: slip (R58, R59, R71) -/

/-- The slip of a schedule tick in gc, stretches rounded up. -/
def Wing.slip (g : Wing) : Nat :=
  g.thrGc.toNat + g.frRefresh.toNat + g.frRetry.toNat + g.frOther.toNat + g.freqGc.toNat + cdiv g.strEvt.toNat 2

/-- WING_SLIP_LAST and WING_SLIP_TOTAL take the working counters, which are cleared. -/
def Wing.latch (g : Wing) (stick : BitVec 64) : Wing :=
  let v := g.slips
  let last := pack ((indexed (v ++ [g.doneGc, stick.toNat])).map fun p => (32 * p.1, 32, p.2))
  let total := pack ((indexed v).map fun p => (64 * p.1, 64, min (field g.slipTot (64 * p.1) 64 + p.2) (2 ^ 64 - 1)))
  { g with
    slipLast := BitVec.ofNat 256 last, slipTot := BitVec.ofNat 384 total, doneNow := false
    thrGc := 0, strEvt := 0, frRefresh := 0, frRetry := 0, frOther := 0, freqGc := 0 }

def latchSlip (s : State) : State :=
  let stick := s.job.stick
  let worst := s.wings.toList.foldl (fun n g => if g.doneNow then max n g.slip else n) s.job.slipMax.toNat
  let f (g : Wing) : Wing := if g.doneNow then g.latch stick else g
  { s with wings := s.wings.map f, job := { s.job with slipMax := BitVec.ofNat 32 (min worst (2 ^ 32 - 1)) } }

/-! ## Step 3: deadlines (R61, R63, R67, R69) -/

/-- The Wing that completed last. [DEDUCED: log 12.] -/
def State.critical (s : State) : WingId :=
  allWings.foldl (fun a b => if (s.wing a).doneTime < (s.wing b).doneTime then b else a) 0

/-- The report of a record of the critical Wing, which the Threshold writes at the boundary itself (R62 step 3, R69).
[DEDUCED: log 12.] -/
def State.overrunRec (s : State) (code cls : Nat) (tick : BitVec 64) (kind dropped shift : Nat) : Report :=
  let w := s.critical
  let g := s.wing w
  let slips := (List.range 6).map fun i => field g.slipLast (32 * i) 32
  { code := BitVec.ofNat 16 code, cls := BitVec.ofNat 2 cls, lroom := BitVec.ofNat 7 g.doneRoom, wing := BitVec.ofNat 2 w.val,
    src := 5#4, tag := g.doneTag, lost := false
    body := slipRecord tick s.job.stick kind w.val g.doneRoom g.doneTag (g.doneGc - s.tickRc * g.tickM) dropped g.budget
      shift slips }

/-- Real-time mode: a miss is detected at its boundary, and recorded once every Wing has completed. -/
def missCheck (s : State) : State :=
  let j := s.job
  if !j.rt || j.frozen || !(j.js == .running || j.js == .draining) then s
  else if !s.allComplete then
    if j.missNow then { s with job := { j with droppedB := j.droppedB + 1 } }
    else { s with job := { j with
      miss := true, missCount := satAdd j.missCount 1, missNow := true, missBound := j.tick, droppedB := 1 } }
  else if j.missNow then
    ({ s with job := { j with missNow := false, droppedB := 0 } }).takeReport (s.overrunRec 0x1101 0 j.missBound 0 j.droppedB 0)
  else s

/-- Throughput mode: a boundary that moved is recorded. -/
def overrunCheck (shift : Nat) (s : State) : State :=
  if s.job.rt || s.job.frozen || s.job.js ≠ .running || shift = 0 then s
  else
    ({ s with job := { s.job with overrun := true } }).takeReport (s.overrunRec 0x1102 3 s.job.tick 2 0 shift)

/-! ## What waits for a boundary -/

/-- A written trace control word takes effect (R775). [DESIGN CHOICE: log 33.] -/
def Trace.apply (t : Trace) : Trace :=
  match t.pending with
  | some v => { t with ctl := v, pending := none, after := if bit v 2 then t.after else none }
  | none => t

/-- HOLDOVER_EXPIRED: every Wing stops (R109). [DESIGN CHOICE: log 17.] -/
def stopWings (s : State) : State :=
  if !s.thr.clk.stopAll then s
  else { s with wings := s.wings.map fun (g : Wing) => { g with halted := true, clockOn := false } }

/-- PEER_FAULTED takes effect (R744). -/
def peerFault (s : State) : State :=
  match s.thr.stw.peer with
  | none => s
  | some _ =>
    let s := { s with thr := { s.thr with stw := { s.thr.stw with peer := none } } }
    match s.job.js with
    | .loaded | .running | .draining | .done => enterFaulted 0x700E false s
    | _ => s

/-- STOP_TICK is reached or past (R765). [DEDUCED: log 44.] -/
def mirrorFault (s : State) : State :=
  let m := s.mir
  if !m.enable || m.stopTick = 0#64 || s.job.tick.ult m.stopTick then s
  else match s.job.js with
    | .running | .draining | .done =>
      let late := m.stopTick.ult s.job.tick
      enterFaulted 0xA001 true
        ({ s with mir := { m with stopLate := m.stopLate || late } }).mirrorReport
    | _ => s

/-- The root's tick check or ALIGN, every ALIGN_PERIOD ticks (R632, R635). -/
def rootCheck (s : State) : State :=
  let n := s.alignPeriod
  if s.job.js ≠ .running || s.ownRank ≠ (s.porch 0).root || n = 0 || (s.job.tick - s.job.t0).toNat % n ≠ 0 then s
  else if s.job.rt then tickCheckSend s
  else alignSend s

/-! ## The start of a schedule tick (R46, R47, R304, R305) -/

/-- The mirror windows of the former tick close (R763). [DEDUCED: log 44.] -/
def closeMirror (r : RoomId) (s : State) : State :=
  let s := closeWindows r 4096 s
  s.modRoom r fun rm => { rm with mirror := { rm.mirror with win := 0, lines := 0, crc := BitVec.allOnes 64 } }

/-- A Room begins its segment. -/
def beginRoom (first : Bool) (r : RoomId) (s : State) : State :=
  let cyc := s.cyc r
  s.modRoom r fun rm =>
    let q := rm.seq
    let seg := if first then 0#16 else q.next
    let q := { q with loops := [], now := [], lastIssue := cyc, doneAt := cyc, doneTag := 0, bidx := 0, fresh := true }
    if q.ended || q.structStop then { rm with seq := { q with issuing := false } }
    else match rm.prog.segs[seg.toNat]? with
      | some g => { rm with seq := { q with segment := seg, issuing := true, bptr := g.off } }
      | none => { rm with seq := { q with segment := seg, issuing := false } }

/-- The declared segments that the Rooms of a Wing run. -/
def State.segsOf (s : State) (w : WingId) : List Seg :=
  ((roomsOf w).filter s.roomUp).filterMap fun r =>
    let rm := s.room r
    if rm.seq.issuing then rm.prog.segs[rm.seq.segment.toNat]? else none

/-- A Wing begins a schedule tick with gc 0 on the reference edge (R91). The throttle's accumulator is cleared and gc 0 is the
first to add to it, so gc 0 is no stop-cycle (R122). [DESIGN CHOICE: log 18.] -/
def beginWing (w : WingId) (s : State) : State :=
  let rs := (roomsOf w).filter s.roomUp
  let g := s.wing w
  let s := if g.clockOn && g.nextEdge ≠ s.now + g.period then
      startPeriod w ((endPeriod w s).modWing w fun g => { g with nextEdge := s.now + g.period })
    else s
  let segs := s.segsOf w
  s.modWing w fun g => { g with
    active := !rs.isEmpty, done := false, doneNow := false, doneGc := 0, doneTime := 0, lateRec := false
    acc := max g.dutyT.toNat g.dutyP.toNat, thr := false, strTick := 0
    per0 := g.periods, ac0 := g.acyc, perB := g.periods, tickM := g.m
    budget := segs.foldl (fun b x => max b x.budget) 0
    newM := ((segs.find? fun x => x.newM ≠ 0).map Seg.newM).getD 0 }

/-- Every Wing begins the schedule tick. [DEDUCED: log 14.] -/
def beginTick (first : Bool) (s : State) : State :=
  let rs := allRooms.filter s.roomUp
  let s := rs.foldl (fun s r => closeMirror r s) s
  let s := rs.foldl (fun s r => beginRoom first r s) s
  let s := { s with job := { s.job with boundTick := s.job.tick } }
  let s := allWings.foldl (fun s w => beginWing w s) s
  rs.foldl (fun s r =>
    let cyc := s.cyc r
    s.modRoom r fun rm => { rm with seq := { rm.seq with lastIssue := cyc, doneAt := cyc } }) s

/-- Step 5: the next schedule tick, or what comes in its place (R306, R807, R809). -/
def nextTick (s : State) : State :=
  let j := s.job
  if j.js ≠ .running || !s.allComplete then s
  else
    let target := j.stick + 1
    if j.pend ≠ 0#2 && (j.frozen || !(target.ult j.pendStick)) then
      if j.pend = 1#2 then quiesceNow s else if j.frozen then s else freezeNow s
    else if j.frozen then s
    else beginTick false { s with job := { j with stick := target } }

/-- TICK_BOUNDARY (R62). [DEDUCED: log 13.] -/
def tickBoundary (s : State) : State :=
  match s.nextBound with
  | none => s
  | some b =>
    if s.rc < b then s
    else
      let k := s.thr.clk
      let old := s.job
      let tick := match k.tickSet with
        | some v => v
        | none => old.tick + 1
      let mark (g : Wing) : Wing := { g with perB := g.periods }
      let s := { s with
        wings := s.wings.map mark
        job := { old with tick := tick, lastBound := b, bound := b + s.tickRc }
        thr := { s.thr with clk := { k with tickSet := none } } }
      let s := if k.tickSet.isSome then s.announceIn k.delta else s
      let s := latchSlip s
      let s := overrunCheck (b - old.bound) (missCheck s)
      let s := (allRooms.filter s.roomUp).foldl (fun s r => s.modRoom r fun rm => { rm with trace := rm.trace.apply }) s
      let s := mirrorFault (peerFault (stopWings s))
      let s := rootCheck s
      let s := match s.job.js with
        | .running | .draining => s.doorplate
        | _ => s
      nextTick s

/-! ## The start of a job (R631) -/

/-- The counters that count from the job's entry to RUNNING (R245, R300, R370, R461, R646). [DESIGN CHOICE: log 84.] -/
def Room.clearCounts (rm : Room) : Room :=
  { rm with
    stopped := false
    seq := { rm.seq with freezeGc := 0, seqFault := 0, outFault := 0 }
    mx := { rm.mx with entryGc := 0, skipFault := 0 }
    vec := { rm.vec with issueGc := 0, skipFault := 0 }
    out := { rm.out with waitGc := 0 }
    dw := { rm.dw with
      reqIssued := 0, linesFetched := 0, linesUsed := 0, suppressed := 0, fenced := 0, linesUnused := 0, linesPut := 0
      leadSum := 0, leadReads := 0, lagSum := 0, lagReads := 0, leadMin := 0xFFFF, lagMax := 0, lateUnrep := 0, lags := 0 } }

/-- The collective contexts count from job start (R638, R641). -/
def Porch.clearColl (x : Porch) : Porch :=
  let f (c : CollCtx) : CollCtx := { c with first := 0, count := 0, insts := [] }
  { x with coll := x.coll.map f }

/-- The start record of Mirror mode (R760). -/
def State.mirrorStart (s : State) : State :=
  if !s.mir.enable then s
  else
    let hash := match s.thr.load.bin with
      | some b => b.hash.toNat
      | none => 0
    let pid (t : Option PTable) : Bytes := leBytes 4 (match t with | some x => x.id.toNat | none => 0)
    let cid (t : Option CTable) : Bytes := leBytes 4 (match t with | some x => field x.header 224 32 | none => 0)
    let bytes := leBytes 64 hash ++ leBytes 8 s.job.seed.toNat ++ leBytes 2 s.ownRank.toNat ++
      leBytes 2 ((s.porch 0).nranks) ++ leBytes 8 s.job.t0.toNat ++ leBytes 1 (b2n s.job.rt) ++
      s.tabs.ptab.toList.flatMap pid ++ s.tabs.ctab.toList.flatMap cid
    let h := Config.sha3 bytes
    s.mirrorSend { stick := s.job.stick, w := 0xFFFF#16, lroom := 0, lines := 0, crc := h.extractLsb' 0 64,
                   tick := s.job.tick }

/-- The job enters RUNNING with its first boundary. [DESIGN CHOICE: log 33; DESIGN CHOICE: log 84.] -/
def startJob (s : State) : State :=
  let j := s.job
  let rooms := s.rooms.map fun (rm : Room) => { rm.clearCounts with trace := rm.trace.apply }
  let s := { s with
    rooms := rooms
    fab := { s.fab with porches := s.fab.porches.map Porch.clearColl }
    mir := { s.mir with matched := 0 }
    flt := { s.flt with jobCode := 0 }
    job := { j with
      rt := j.startRt, tick := j.t0, stick := j.t0, boundTick := j.t0, lastBound := s.rc, bound := s.rc + s.tickRc
      ticking := true, missNow := false, missBound := 0, droppedB := 0, missCount := 0, slipMax := 0, startSet := false
      stopped := false }
    thr := { s.thr with progress := 0, prseq := 0, clk := { s.thr.clk with checks := 0 } } }
  let s := (s.setState .running 2).mirrorStart
  (beginTick true s).endStart 0 0

/-- JOB_FIRST_BOUNDARY. [DEDUCED: log 48.] -/
def jobFirstBoundary (s : State) : State :=
  let j := s.job
  let k := s.thr.clk
  if j.js ≠ .loaded || !j.startSet || k.jclk.ult j.startRc || decide (19 < k.residual.toInt.natAbs) then s
  else if s.thr.stw.peer.isSome then peerFault s
  else startJob s

/-! ## The commands -/

def execTickBoundary (s : State) : Host.Outcome State Fault Refusal := s.done (tickBoundary s)
def execJobFirstBoundary (s : State) : Host.Outcome State Fault Refusal := s.done (jobFirstBoundary s)
def execWingTickComplete (w : WingId) (s : State) : Host.Outcome State Fault Refusal := s.done (wingTickComplete w s)
def execWingClockRestart (w : WingId) (locked : Bool) (s : State) : Host.Outcome State Fault Refusal :=
  s.done (wingClockRestart w locked s)
def execWingRelockFail (w : WingId) (s : State) : Host.Outcome State Fault Refusal := s.done (wingRelockFail w s)
def execWingFreezeEnd (w : WingId) (s : State) : Host.Outcome State Fault Refusal := s.done (wingFreezeEnd w s)
def execFreezeTimeout (w : WingId) (s : State) : Host.Outcome State Fault Refusal := s.done (freezeTimeout w s)

end Sys2Proof.Machine
end

