-- ==== Sys2Proof/Machine/Dispatch.lean ====
section
/-! DEFINITION. The effect of every command, by its row of the table. -/

namespace Sys2Proof.Machine

/-- The effect of a command on everything but the queue. -/
def exec (i : Instr) (s : State) : Host.Outcome State Fault Refusal :=
  match i with
  | .powerUp b => Sys2Proof.Machine.execPowerUp b s
  | .bootRailWaitDone => Sys2Proof.Machine.execBootRailWaitDone s
  | .powerDown lowRc => Sys2Proof.Machine.execPowerDown lowRc s
  | .railGoodChange sel level => Sys2Proof.Machine.execRailGoodChange sel level s
  | .refLoss => Sys2Proof.Machine.execRefLoss s
  | .refReturn => Sys2Proof.Machine.execRefReturn s
  | .holdoverExpired => Sys2Proof.Machine.execHoldoverExpired s
  | .oscCalibrate count => Sys2Proof.Machine.execOscCalibrate count s
  | .thermTrip sensor temp => Sys2Proof.Machine.execThermTrip sensor temp s
  | .throttleEval w temp powerMw => Sys2Proof.Machine.execThrottleEval w temp powerMw s
  | .droopDetect w => Sys2Proof.Machine.execDroopDetect w s
  | .tickBoundary => Sys2Proof.Machine.execTickBoundary s
  | .jobFirstBoundary => Sys2Proof.Machine.execJobFirstBoundary s
  | .wingTickComplete w => Sys2Proof.Machine.execWingTickComplete w s
  | .wingClockRestart w locked => Sys2Proof.Machine.execWingClockRestart w locked s
  | .wingRelockFail w => Sys2Proof.Machine.execWingRelockFail w s
  | .bundleIssue r => Sys2Proof.Machine.execBundleIssue r s
  | .wingFreezeEnd w => Sys2Proof.Machine.execWingFreezeEnd w s
  | .freezeTimeout w => Sys2Proof.Machine.execFreezeTimeout w s
  | .snop r c => Sys2Proof.Machine.execSnop r c s
  | .sset r c => Sys2Proof.Machine.execSset r c s
  | .sadd r c => Sys2Proof.Machine.execSadd r c s
  | .ssub r c => Sys2Proof.Machine.execSsub r c s
  | .smul r c => Sys2Proof.Machine.execSmul r c s
  | .sand r c => Sys2Proof.Machine.execSand r c s
  | .sor r c => Sys2Proof.Machine.execSor r c s
  | .sshr r c => Sys2Proof.Machine.execSshr r c s
  | .scmp r c => Sys2Proof.Machine.execScmp r c s
  | .pset r c => Sys2Proof.Machine.execPset r c s
  | .qdepth r c => Sys2Proof.Machine.execQdepth r c s
  | .svget r c => Sys2Proof.Machine.execSvget r c s
  | .dset r c => Sys2Proof.Machine.execDset r c s
  | .loop r c => Sys2Proof.Machine.execLoop r c s
  | .tend r c => Sys2Proof.Machine.execTend r c s
  | .dwfetch r c => Sys2Proof.Machine.execDwfetch r c s
  | .dwput r c => Sys2Proof.Machine.execDwput r c s
  | .dwhalt r c => Sys2Proof.Machine.execDwhalt r c s
  | .xpose r c => Sys2Proof.Machine.execXpose r c s
  | .gather r c => Sys2Proof.Machine.execGather r c s
  | .scatter r c => Sys2Proof.Machine.execScatter r c s
  | .pown r c => Sys2Proof.Machine.execPown r c s
  | .pgate r c => Sys2Proof.Machine.execPgate r c s
  | .pwake r c => Sys2Proof.Machine.execPwake r c s
  | .ptagclr r c => Sys2Proof.Machine.execPtagclr r c s
  | .pantryBankUsable r bank => Sys2Proof.Machine.execPantryBankUsable r bank s
  | .mload r c => Sys2Proof.Machine.execMload r c s
  | .mloadTileReady r => Sys2Proof.Machine.execMloadTileReady r s
  | .mswap r c => Sys2Proof.Machine.execMswap r c s
  | .mm128 r c => Sys2Proof.Machine.execMm128 r c s
  | .mmt r c => Sys2Proof.Machine.execMmt r c s
  | .mm64p r c => Sys2Proof.Machine.execMm64p r c s
  | .mm64q r c => Sys2Proof.Machine.execMm64q r c s
  | .hatchSlotToVector r slot => Sys2Proof.Machine.execHatchSlotToVector r slot s
  | .vld r c => Sys2Proof.Machine.execVld r c s
  | .vst r c => Sys2Proof.Machine.execVst r c s
  | .vhld r c => Sys2Proof.Machine.execVhld r c s
  | .vhst r c => Sys2Proof.Machine.execVhst r c s
  | .vhrel r c => Sys2Proof.Machine.execVhrel r c s
  | .vrng r c => Sys2Proof.Machine.execVrng r c s
  | .vchain r c => Sys2Proof.Machine.execVchain r c s
  | .vadd r c => Sys2Proof.Machine.execVadd r c s
  | .vsub r c => Sys2Proof.Machine.execVsub r c s
  | .vmul r c => Sys2Proof.Machine.execVmul r c s
  | .vfma r c => Sys2Proof.Machine.execVfma r c s
  | .vmax r c => Sys2Proof.Machine.execVmax r c s
  | .vmin r c => Sys2Proof.Machine.execVmin r c s
  | .vabs r c => Sys2Proof.Machine.execVabs r c s
  | .vneg r c => Sys2Proof.Machine.execVneg r c s
  | .vcmp r c => Sys2Proof.Machine.execVcmp r c s
  | .vsel r c => Sys2Proof.Machine.execVsel r c s
  | .viadd r c => Sys2Proof.Machine.execViadd r c s
  | .visub r c => Sys2Proof.Machine.execVisub r c s
  | .vimul r c => Sys2Proof.Machine.execVimul r c s
  | .vand r c => Sys2Proof.Machine.execVand r c s
  | .vor r c => Sys2Proof.Machine.execVor r c s
  | .vxor r c => Sys2Proof.Machine.execVxor r c s
  | .vshl r c => Sys2Proof.Machine.execVshl r c s
  | .vshr r c => Sys2Proof.Machine.execVshr r c s
  | .vsar r c => Sys2Proof.Machine.execVsar r c s
  | .vimax r c => Sys2Proof.Machine.execVimax r c s
  | .vimin r c => Sys2Proof.Machine.execVimin r c s
  | .vrnd r c => Sys2Proof.Machine.execVrnd r c s
  | .vf2i r c => Sys2Proof.Machine.execVf2i r c s
  | .vi2f r c => Sys2Proof.Machine.execVi2f r c s
  | .vrot r c => Sys2Proof.Machine.execVrot r c s
  | .vbcast r c => Sys2Proof.Machine.execVbcast r c s
  | .vrsum r c => Sys2Proof.Machine.execVrsum r c s
  | .vrmax r c => Sys2Proof.Machine.execVrmax r c s
  | .vrmin r c => Sys2Proof.Machine.execVrmin r c s
  | .vscan r c => Sys2Proof.Machine.execVscan r c s
  | .vcrv r c => Sys2Proof.Machine.execVcrv r c s
  | .drain r c => Sys2Proof.Machine.execDrain r c s
  | .ocopy r c => Sys2Proof.Machine.execOcopy r c s
  | .omsg r c => Sys2Proof.Machine.execOmsg r c s
  | .oinc r c => Sys2Proof.Machine.execOinc r c s
  | .linit r c => Sys2Proof.Machine.execLinit r c s
  | .ladd r c => Sys2Proof.Machine.execLadd r c s
  | .lwatch r c => Sys2Proof.Machine.execLwatch r c s
  | .lbar r c => Sys2Proof.Machine.execLbar r c s
  | .watchEnd r wid => Sys2Proof.Machine.execWatchEnd r wid s
  | .watchTimeout r wid => Sys2Proof.Machine.execWatchTimeout r wid s
  | .arrivalWrite r busy => Sys2Proof.Machine.execArrivalWrite r busy s
  | .latchPacketArrival r => Sys2Proof.Machine.execLatchPacketArrival r s
  | .writebackRead r busy => Sys2Proof.Machine.execWritebackRead r busy s
  | .pantryScrubStep r bank wfree => Sys2Proof.Machine.execPantryScrubStep r bank wfree s
  | .dwRequestIssue r => Sys2Proof.Machine.execDwRequestIssue r s
  | .dwRequestWithheld r => Sys2Proof.Machine.execDwRequestWithheld r s
  | .dwFetchReturn r id => Sys2Proof.Machine.execDwFetchReturn r id s
  | .dwWritebackAck r id => Sys2Proof.Machine.execDwWritebackAck r id s
  | .hbmRequestArrive id => Sys2Proof.Machine.execHbmRequestArrive id s
  | .hbmRequestBegin st => Sys2Proof.Machine.execHbmRequestBegin st s
  | .fixedRefreshWindow => Sys2Proof.Machine.execFixedRefreshWindow s
  | .extraRefreshWindow st => Sys2Proof.Machine.execExtraRefreshWindow st s
  | .refreshLevelEval st => Sys2Proof.Machine.execRefreshLevelEval st s
  | .stackTempRead st temp => Sys2Proof.Machine.execStackTempRead st temp s
  | .hbmScrubStep st => Sys2Proof.Machine.execHbmScrubStep st s
  | .scrubBehind c => Sys2Proof.Machine.execScrubBehind c s
  | .engineOpStart c e comp => Sys2Proof.Machine.execEngineOpStart c e comp s
  | .engineOpComplete c e => Sys2Proof.Machine.execEngineOpComplete c e s
  | .monHit n h card peersReady => Sys2Proof.Machine.execMonHit n h card peersReady s
  | .cardCrcReread card peersReady => Sys2Proof.Machine.execCardCrcReread card peersReady s
  | .cardNop => Sys2Proof.Machine.execCardNop s
  | .cardLoad => Sys2Proof.Machine.execCardLoad s
  | .cardStart => Sys2Proof.Machine.execCardStart s
  | .cardStop => Sys2Proof.Machine.execCardStop s
  | .cardQuiesce => Sys2Proof.Machine.execCardQuiesce s
  | .cardFreeze => Sys2Proof.Machine.execCardFreeze s
  | .cardUnload => Sys2Proof.Machine.execCardUnload s
  | .cardMode => Sys2Proof.Machine.execCardMode s
  | .cardTable comp => Sys2Proof.Machine.execCardTable comp s
  | .cardAttest => Sys2Proof.Machine.execCardAttest s
  | .cRd h addr multi => Sys2Proof.Machine.execCRd h addr multi s
  | .cWr h addr multi mask data => Sys2Proof.Machine.execCWr h addr multi mask data s
  | .palboData h data => Sys2Proof.Machine.execPalboData h data s
  | .palboCmp h => Sys2Proof.Machine.execPalboCmp h s
  | .palboCreditAdvertise req mon => Sys2Proof.Machine.execPalboCreditAdvertise req mon s
  | .palboFlitReplay aseq nak bad => Sys2Proof.Machine.execPalboFlitReplay aseq nak bad s
  | .palboRspTimeout rid => Sys2Proof.Machine.execPalboRspTimeout rid s
  | .palboFenced => Sys2Proof.Machine.execPalboFenced s
  | .doorplateSend => Sys2Proof.Machine.execDoorplateSend s
  | .hostCfgEnable o data => Sys2Proof.Machine.execHostCfgEnable o data s
  | .hostCfgDisable o data => Sys2Proof.Machine.execHostCfgDisable o data s
  | .portSlotReceive p sl => Sys2Proof.Machine.execPortSlotReceive p sl s
  | .fabLinkLost p => Sys2Proof.Machine.execFabLinkLost p s
  | .routerPacketRoute p free => Sys2Proof.Machine.execRouterPacketRoute p free s
  | .departureInject r free => Sys2Proof.Machine.execDepartureInject r free s
  | .packetEject p => Sys2Proof.Machine.execPacketEject p s
  | .ackSend p srank sroom droom => Sys2Proof.Machine.execAckSend p srank sroom droom s
  | .ackReceive r drank droom count retried => Sys2Proof.Machine.execAckReceive r drank droom count retried s
  | .mailslotRecordArrival r => Sys2Proof.Machine.execMailslotRecordArrival r s
  | .creditReturnArrival r srank sroom mslot units retried => Sys2Proof.Machine.execCreditReturnArrival r srank sroom mslot units retried s
  | .creditProbe r => Sys2Proof.Machine.execCreditProbe r s
  | .collContribution p => Sys2Proof.Machine.execCollContribution p s
  | .collUp p ctx inst idx srank data => Sys2Proof.Machine.execCollUp p ctx inst idx srank data s
  | .collDn p ctx inst idx data => Sys2Proof.Machine.execCollDn p ctx inst idx data s
  | .collInstanceComplete p ctx inst => Sys2Proof.Machine.execCollInstanceComplete p ctx inst s
  | .stwStop m => Sys2Proof.Machine.execStwStop m s
  | .stwQuiesce m => Sys2Proof.Machine.execStwQuiesce m s
  | .stwFreeze m => Sys2Proof.Machine.execStwFreeze m s
  | .stwStart m => Sys2Proof.Machine.execStwStart m s
  | .stwAlign m port => Sys2Proof.Machine.execStwAlign m port s
  | .stwTickCheck m => Sys2Proof.Machine.execStwTickCheck m s
  | .stwOutOfStep m => Sys2Proof.Machine.execStwOutOfStep m s
  | .stwInStep m => Sys2Proof.Machine.execStwInStep m s
  | .stwFaulted m => Sys2Proof.Machine.execStwFaulted m s
  | .stwDrainQuery m => Sys2Proof.Machine.execStwDrainQuery m s
  | .stwDrainReport m => Sys2Proof.Machine.execStwDrainReport m s
  | .mapDrainCheck => Sys2Proof.Machine.execMapDrainCheck s
  | .stwMapOpen m => Sys2Proof.Machine.execStwMapOpen m s
  | .stwMapClose m => Sys2Proof.Machine.execStwMapClose m s
  | .stwStateRead m => Sys2Proof.Machine.execStwStateRead m s
  | .stwMgmtRead m => Sys2Proof.Machine.execStwMgmtRead m s
  | .stwMgmtWrite m => Sys2Proof.Machine.execStwMgmtWrite m s
  | .stwProbe m => Sys2Proof.Machine.execStwProbe m s
  | .stwResponse m => Sys2Proof.Machine.execStwResponse m s
  | .goStop o => Sys2Proof.Machine.execGoStop o s
  | .goQuiesce o => Sys2Proof.Machine.execGoQuiesce o s
  | .goFreeze o => Sys2Proof.Machine.execGoFreeze o s
  | .mgmtRegWrite o addr data hw => Sys2Proof.Machine.execMgmtRegWrite o addr data hw s
  | .mgmtReadCapture o addr => Sys2Proof.Machine.execMgmtReadCapture o addr s
  | .gbReadMarkWrite o data => Sys2Proof.Machine.execGbReadMarkWrite o data s
  | .faultReadMarkWrite o data => Sys2Proof.Machine.execFaultReadMarkWrite o data s
  | .debugEnter o data => Sys2Proof.Machine.execDebugEnter o data s
  | .debugLeave o data => Sys2Proof.Machine.execDebugLeave o data s
  | .mirrorEnableWrite o data b => Sys2Proof.Machine.execMirrorEnableWrite o data b s
  | .traceCtlWrite o r data => Sys2Proof.Machine.execTraceCtlWrite o r data s
  | .collEntryStage o p hi data => Sys2Proof.Machine.execCollEntryStage o p hi data s
  | .collEntryCommit o p data => Sys2Proof.Machine.execCollEntryCommit o p data s
  | .rankEntryWrite o p data => Sys2Proof.Machine.execRankEntryWrite o p data s
  | .rankCfgWrite o p hi data => Sys2Proof.Machine.execRankCfgWrite o p hi data s
  | .i3cReadRequest b => Sys2Proof.Machine.execI3cReadRequest b s
  | .i3cWriteRequest b => Sys2Proof.Machine.execI3cWriteRequest b s
  | .i3cPrivateRead => Sys2Proof.Machine.execI3cPrivateRead s
  | .i3cSetdasa static dyn => Sys2Proof.Machine.execI3cSetdasa static dyn s
  | .i3cEntdaa dyn => Sys2Proof.Machine.execI3cEntdaa dyn s
  | .testMgmtRead addr => Sys2Proof.Machine.execTestMgmtRead addr s
  | .testMgmtWrite addr data => Sys2Proof.Machine.execTestMgmtWrite addr data s
  | .faultReportArrive => Sys2Proof.Machine.execFaultReportArrive s
  | .guestbookAppend => Sys2Proof.Machine.execGuestbookAppend s
  | .smokeLogAppend => Sys2Proof.Machine.execSmokeLogAppend s
  | .mirrorWindowClose r => Sys2Proof.Machine.execMirrorWindowClose r s
  | .mirrorRecordReceive m => Sys2Proof.Machine.execMirrorRecordReceive m s
  | .mirrorStopTickReceive stopTick => Sys2Proof.Machine.execMirrorStopTickReceive stopTick s
  | .mirrorLogExchange twin whole => Sys2Proof.Machine.execMirrorLogExchange twin whole s
  | .mirrorLinkLost discarded => Sys2Proof.Machine.execMirrorLinkLost discarded s
  | .jobDone => Sys2Proof.Machine.execJobDone s
  | .alwaysOnPowerLoss => Sys2Proof.Machine.execAlwaysOnPowerLoss s
  | .portRetrainingEnd p b aseq saseq => Sys2Proof.Machine.execPortRetrainingEnd p b aseq saseq s
  | .palboRetrainingEnd req mon aseq => Sys2Proof.Machine.execPalboRetrainingEnd req mon aseq s

end Sys2Proof.Machine
end

