-- ==== Sys2Proof/Machine/Step.lean ====
section
/-! DEFINITION. The step of the machine: the command at the front of the queue, or the passage of time. -/

namespace Sys2Proof.Machine

/-- One step: the command at the front of the queue acts on the package with the rest of the queue; with no command waiting,
time passes to the next clock edge. [DESIGN CHOICE: log 1.] -/
def step (s : State) : Host.Outcome State Fault Refusal :=
  match s.pending with
  | [] => .next (tick s)
  | c :: rest => exec c { s with pending := rest }

/-- The command that a word of the table spells, put at the front of the queue. [DESIGN CHOICE: log 87.] -/
def State.withFetchWord (s : State) (nbits w : Nat) : State :=
  match Sys2Proof.decodeTableWord nbits w with
  | some c => { s with pending := c :: s.pending }
  | none => s

end Sys2Proof.Machine
end

