-- ==== Sys2Proof/WellFormed.lean ====
section
/-! DEFINITION. Which commands are well formed: a unit's command carries the UNIT and OPCODE of its row, and what comes
from outside has the length its rule gives it. -/

namespace Sys2Proof.Machine

/-- A unit's command with the UNIT and the OPCODE of its row (R311, R358). -/
def names (c : QCmd) (unit op : Nat) : Bool := unitOf c.word == unit && opcodeOf c.word == op

/-- The OPCODEs that R358 defines for the units 1 to 6. -/
def definedOps (unit : Nat) : List Nat :=
  match unit with
  | 1 => [1, 2, 3, 8, 9, 10]
  | 2 => [1, 2, 3, 4]
  | 3 => [1, 2, 4, 5, 6, 7]
  | 4 => [1, 2, 4, 5, 6, 8, 0x10, 0x11, 0x12, 0x13, 0x14, 0x15, 0x16, 0x17, 0x18, 0x19] ++
      [0x20, 0x21, 0x22, 0x23, 0x24, 0x25, 0x26, 0x27, 0x28, 0x29, 0x2A, 0x2C, 0x2D, 0x2E] ++
      [0x30, 0x31, 0x34, 0x35, 0x36, 0x37, 0x38, 0x3C, 0x40]
  | 5 => [1, 2, 3]
  | 6 => [1, 2, 3, 4]
  | _ => []

/-- The first row of a unit also carries its reserved OPCODEs (R845). -/
def carries (c : QCmd) (unit op : Nat) : Bool :=
  unitOf c.word == unit && (opcodeOf c.word == op || !((definedOps unit).contains (opcodeOf c.word)))

/-- The alignment of a companion access (R654). -/
def addrOk (addr : BitVec 48) (multi : Bool) : Bool := addr.toNat % (if multi then 256 else 64) == 0

/-- A Stairwell message has at most 224 data bytes (R796). -/
def stwOk (m : StwMsg) : Bool := decide (m.data.length ≤ 224)

/-- Is a command well formed? -/
def wellFormed (i : Instr) : Bool :=
  match i with
  | .powerUp _ => true
  | .bootRailWaitDone => true
  | .powerDown _ => true
  | .railGoodChange _ _ => true
  | .refLoss => true
  | .refReturn => true
  | .holdoverExpired => true
  | .oscCalibrate _ => true
  | .thermTrip _ _ => true
  | .throttleEval _ _ _ => true
  | .droopDetect _ => true
  | .tickBoundary => true
  | .jobFirstBoundary => true
  | .wingTickComplete _ => true
  | .wingClockRestart _ _ => true
  | .wingRelockFail _ => true
  | .bundleIssue _ => true
  | .wingFreezeEnd _ => true
  | .freezeTimeout _ => true
  | .snop _ c => names c 0 0x00
  | .sset _ c => names c 0 0x01
  | .sadd _ c => names c 0 0x02
  | .ssub _ c => names c 0 0x03
  | .smul _ c => names c 0 0x04
  | .sand _ c => names c 0 0x05
  | .sor _ c => names c 0 0x06
  | .sshr _ c => names c 0 0x07
  | .scmp _ c => names c 0 0x08
  | .pset _ c => names c 0 0x09
  | .qdepth _ c => names c 0 0x0C
  | .svget _ c => names c 0 0x0D
  | .dset _ c => names c 0 0x0E
  | .loop _ c => names c 0 0x10
  | .tend _ c => names c 0 0x11
  | .dwfetch _ c => carries c 1 0x01
  | .dwput _ c => names c 1 0x02
  | .dwhalt _ c => names c 1 0x03
  | .xpose _ c => names c 1 0x08
  | .gather _ c => names c 1 0x09
  | .scatter _ c => names c 1 0x0A
  | .pown _ c => carries c 2 0x01
  | .pgate _ c => names c 2 0x02
  | .pwake _ c => names c 2 0x03
  | .ptagclr _ c => names c 2 0x04
  | .pantryBankUsable _ _ => true
  | .mload _ c => names c 3 0x01
  | .mloadTileReady _ => true
  | .mswap _ c => names c 3 0x02
  | .mm128 _ c => carries c 3 0x04
  | .mmt _ c => names c 3 0x05
  | .mm64p _ c => names c 3 0x06
  | .mm64q _ c => names c 3 0x07
  | .hatchSlotToVector _ _ => true
  | .vld _ c => names c 4 0x01
  | .vst _ c => names c 4 0x02
  | .vhld _ c => names c 4 0x04
  | .vhst _ c => names c 4 0x05
  | .vhrel _ c => names c 4 0x06
  | .vrng _ c => names c 4 0x40
  | .vchain _ c => names c 4 0x08
  | .vadd _ c => carries c 4 0x10
  | .vsub _ c => names c 4 0x11
  | .vmul _ c => names c 4 0x12
  | .vfma _ c => names c 4 0x13
  | .vmax _ c => names c 4 0x14
  | .vmin _ c => names c 4 0x15
  | .vabs _ c => names c 4 0x16
  | .vneg _ c => names c 4 0x17
  | .vcmp _ c => names c 4 0x18
  | .vsel _ c => names c 4 0x19
  | .viadd _ c => names c 4 0x20
  | .visub _ c => names c 4 0x21
  | .vimul _ c => names c 4 0x22
  | .vand _ c => names c 4 0x23
  | .vor _ c => names c 4 0x24
  | .vxor _ c => names c 4 0x25
  | .vshl _ c => names c 4 0x26
  | .vshr _ c => names c 4 0x27
  | .vsar _ c => names c 4 0x28
  | .vimax _ c => names c 4 0x29
  | .vimin _ c => names c 4 0x2A
  | .vrnd _ c => names c 4 0x2C
  | .vf2i _ c => names c 4 0x2D
  | .vi2f _ c => names c 4 0x2E
  | .vrot _ c => names c 4 0x30
  | .vbcast _ c => names c 4 0x31
  | .vrsum _ c => names c 4 0x34
  | .vrmax _ c => names c 4 0x35
  | .vrmin _ c => names c 4 0x36
  | .vscan _ c => names c 4 0x37
  | .vcrv _ c => names c 4 0x3C
  | .drain _ c => names c 4 0x38
  | .ocopy _ c => carries c 5 0x01
  | .omsg _ c => names c 5 0x02
  | .oinc _ c => names c 5 0x03
  | .linit _ c => carries c 6 0x01
  | .ladd _ c => names c 6 0x02
  | .lwatch _ c => names c 6 0x03
  | .lbar _ c => names c 6 0x04
  | .watchEnd _ _ => true
  | .watchTimeout _ _ => true
  | .arrivalWrite _ _ => true
  | .latchPacketArrival _ => true
  | .writebackRead _ _ => true
  | .pantryScrubStep _ _ _ => true
  | .dwRequestIssue _ => true
  | .dwRequestWithheld _ => true
  | .dwFetchReturn _ _ => true
  | .dwWritebackAck _ _ => true
  | .hbmRequestArrive _ => true
  | .hbmRequestBegin _ => true
  | .fixedRefreshWindow => true
  | .extraRefreshWindow _ => true
  | .refreshLevelEval _ => true
  | .stackTempRead _ _ => true
  | .hbmScrubStep _ => true
  | .scrubBehind _ => true
  | .engineOpStart _ _ _ => true
  | .engineOpComplete _ _ => true
  | .monHit _ _ card _ => card.length == 192
  | .cardCrcReread card _ => card.length == 192
  | .cardNop => true
  | .cardLoad => true
  | .cardStart => true
  | .cardStop => true
  | .cardQuiesce => true
  | .cardFreeze => true
  | .cardUnload => true
  | .cardMode => true
  | .cardTable _ => true
  | .cardAttest => true
  | .cRd _ addr multi => addrOk addr multi
  | .cWr _ addr multi _ data => data.length == (if multi then 256 else 64) && addrOk addr multi
  | .palboData _ data => data.length == 64 || data.length == 256
  | .palboCmp _ => true
  | .palboCreditAdvertise _ _ => true
  | .palboFlitReplay _ _ _ => true
  | .palboRspTimeout _ => true
  | .palboFenced => true
  | .doorplateSend => true
  | .hostCfgEnable _ _ => true
  | .hostCfgDisable _ _ => true
  | .portSlotReceive _ sl => decide (sl.payload.length ≤ 256)
  | .fabLinkLost _ => true
  | .routerPacketRoute _ _ => true
  | .departureInject _ _ => true
  | .packetEject _ => true
  | .ackSend _ _ sroom droom => decide (sroom.toNat ≤ 95) && decide (droom.toNat ≤ 95)
  | .ackReceive _ _ droom _ _ => decide (droom.toNat ≤ 95)
  | .mailslotRecordArrival _ => true
  | .creditReturnArrival _ _ sroom _ _ _ => decide (sroom.toNat ≤ 95)
  | .creditProbe _ => true
  | .collContribution _ => true
  | .collUp _ _ _ _ _ data => data.length == 256
  | .collDn _ _ _ _ data => data.length == 256
  | .collInstanceComplete _ _ _ => true
  | .stwStop m => stwOk m
  | .stwQuiesce m => stwOk m
  | .stwFreeze m => stwOk m
  | .stwStart m => stwOk m
  | .stwAlign m _ => stwOk m
  | .stwTickCheck m => stwOk m
  | .stwOutOfStep m => stwOk m
  | .stwInStep m => stwOk m
  | .stwFaulted m => stwOk m
  | .stwDrainQuery m => stwOk m
  | .stwDrainReport m => stwOk m
  | .mapDrainCheck => true
  | .stwMapOpen m => stwOk m
  | .stwMapClose m => stwOk m
  | .stwStateRead m => stwOk m
  | .stwMgmtRead m => stwOk m
  | .stwMgmtWrite m => stwOk m
  | .stwProbe m => stwOk m
  | .stwResponse m => stwOk m
  | .goStop _ => true
  | .goQuiesce _ => true
  | .goFreeze _ => true
  | .mgmtRegWrite _ _ _ _ => true
  | .mgmtReadCapture _ _ => true
  | .gbReadMarkWrite _ _ => true
  | .faultReadMarkWrite _ _ => true
  | .debugEnter _ _ => true
  | .debugLeave _ _ => true
  | .mirrorEnableWrite _ _ _ => true
  | .traceCtlWrite _ _ _ => true
  | .collEntryStage _ _ _ _ => true
  | .collEntryCommit _ _ _ => true
  | .rankEntryWrite _ _ _ => true
  | .rankCfgWrite _ _ _ _ => true
  | .i3cReadRequest _ => true
  | .i3cWriteRequest _ => true
  | .i3cPrivateRead => true
  | .i3cSetdasa _ _ => true
  | .i3cEntdaa _ => true
  | .testMgmtRead _ => true
  | .testMgmtWrite _ _ => true
  | .faultReportArrive => true
  | .guestbookAppend => true
  | .smokeLogAppend => true
  | .mirrorWindowClose _ => true
  | .mirrorRecordReceive m => decide (m.lroom.toNat ≤ 95)
  | .mirrorStopTickReceive _ => true
  | .mirrorLogExchange twin _ => decide (twin.length ≤ 4096)
  | .mirrorLinkLost _ => true
  | .jobDone => true
  | .alwaysOnPowerLoss => true
  | .portRetrainingEnd _ _ _ _ => true
  | .palboRetrainingEnd _ _ _ => true

end Sys2Proof.Machine
end

