-- ==== Sys2Proof/Safety.lean ====
section
/-! DEFINITION. What the statements about the machine are said in: the clocks in step, canonical memory, and when a
command of each unit is due. -/

namespace Sys2Proof.Machine

/-- The reference count belongs to the instant: `now` lies in reference cycle `rc`. -/
def State.inTime (s : State) : Prop := s.rc * RCQ ≤ s.now ∧ s.now < (s.rc + 1) * RCQ

/-- Every sparse memory of a Room is in canonical form. -/
def Room.wf (rm : Room) : Bool :=
  swf rm.pan.mem && swf rm.pan.tags && swf rm.pan.bits && swf rm.pan.fetched && swf rm.pan.due && swf rm.pan.sbe &&
    swf rm.hatch.mem && swf rm.vec.regs && swf rm.prog.bundle && swf rm.prog.desc

/-- HBM and every Room's memories are in canonical form. [DESIGN CHOICE: log 88.] -/
def Memory.wf (s : State) : Bool :=
  swf s.mem.hbm && swf s.mem.hbmBad && swf s.mem.hbmSbe && s.rooms.toList.all Room.wf

/-- A sequencer command is due (R310, R324, R359): the Room is on in an advancing gc, the command stands first among those of
the bundle in issue, its UNIT is 0 and its OPCODE `op`, its predicate holds, and its fields are not reserved. -/
structure SeqDue (s : State) (r : RoomId) (op : Nat) (c : QCmd) (last : Bool) (rest : List SeqCmd) : Prop where
  on     : (s.room r).on = true
  adv    : s.advancing (wingOf r) = true
  front  : (s.room r).seq.now = { cmd := c, last := last } :: rest
  unit   : unitOf c.word = 0
  opcode : opcodeOf c.word = op
  pred   : c.pred = true
  fields : seqBad op c.word = false

/-- The command is not the last sequencer command of the last bundle of a loop's body (R326). -/
def Seq.midBody (q : Seq) (rest : List SeqCmd) : Prop :=
  rest ≠ [] ∨ q.issuing = false ∨ ∀ f ∈ q.loops.head?, f.last ≠ q.bidx - 1

/-- The trace completion of a command (R363), while capture is on. -/
def State.endTrace (s : State) (r : RoomId) (unit : Nat) (c : QCmd) (dur : Nat) : List Pend :=
  if bit (s.room r).trace.ctl 0 then
    [{ due := s.cyc r + dur, start := s.cyc r, word := c.word, eff := .complete unit (opcodeOf c.word) (!c.pred) }]
  else []

/-- What a sequencer command does when it is due: within its Room its sequencer becomes `f` of what it was without the
command, its START and COMPLETE are traced, and nothing else changes. -/
def SeqEffect (i : RoomId → QCmd → Instr) (op : Nat) (f : BitVec 128 → Seq → Seq) : Prop :=
  ∀ (s : State) (r : RoomId) (c : QCmd) (last : Bool) (rest : List SeqCmd),
    SeqDue s r op c last rest → (s.room r).seq.midBody rest →
    ∃ tr, exec (i r c) s = .next (s.setRoom r { s.room r with
      trace := tr, pend := (s.room r).pend ++ s.endTrace r 0 c 1, seq := f c.word { (s.room r).seq with now := rest } })

/-- A bundle is due (R309, R310, R319, R359): the Room is on in an advancing gc, its sequencer issues and has no command of
an earlier bundle left, DELTA gc have passed, the bundle can be fetched, and every queue it names has room. -/
structure BundleDue (s : State) (r : RoomId) (b : Bundle) : Prop where
  on      : (s.room r).on = true
  adv     : s.advancing (wingOf r) = true
  issuing : (s.room r).seq.issuing = true
  empty   : (s.room r).seq.now = []
  fetched : (s.room r).prog.bundleAt (s.room r).seq.bptr = b
  time    : (s.room r).seq.lastIssue + (if (s.room r).seq.fresh then 0 else max b.delta 1) ≤ s.cyc r
  good    : (s.room r).seq.fetchBad (s.room r).prog b = false
  fits    : queueFull (s.room r).seq.qdVis b.cmds = none

/-- A bundle without a breach of its form (R307 to R309, R323, R359). -/
structure BundleGood (q : Seq) (b : Bundle) : Prop where
  header : b.bad = false
  delta  : if q.fresh then b.delta = 0 else b.delta ≠ 0
  units  : ∀ c ∈ b.cmds, unitOf c ≤ 6 ∧ (unitOf c = 0 → seqOpOk (opcodeOf c) = true)

/-- A Room after a command has left its unit's queue with DUR `dur` (R60, R318, R363). -/
def Room.started (rm : Room) (s : State) (r : RoomId) (unit : Nat) (c : QCmd) (dur : Nat) (tr : Trace) : Room :=
  { rm.setQueue unit ((rm.queue unit).drop 1) with
    seq := { rm.seq with
      doneTag := if rm.seq.doneAt < s.cyc r + dur then tagOf c.word else rm.seq.doneTag
      doneAt := max rm.seq.doneAt (s.cyc r + dur) }
    trace := tr
    pend := rm.pend ++ s.endTrace r unit c dur }

/-- A command of a unit may start but for the unit's own rules (R210, R318, R354): it is at the head of its queue in an
advancing gc, with the OPCODE `op`, and its predicate holds. -/
structure UnitDue (s : State) (r : RoomId) (unit op : Nat) (c : QCmd) : Prop where
  on     : (s.room r).on = true
  adv    : s.advancing (wingOf r) = true
  head   : ((s.room r).queue unit).head? = some c
  unit   : unitOf c.word = unit
  opcode : opcodeOf c.word = op
  pred   : c.pred = true

/-- A Dumbwaiter command may start (R319, R438): in any gc of a running clock. -/
structure DwDue (s : State) (r : RoomId) (op : Nat) (c : QCmd) : Prop where
  on     : (s.room r).on = true
  clock  : (s.wing (wingOf r)).clockOn = true
  runs   : (s.wing (wingOf r)).halted = false
  head   : ((s.room r).queue 1).head? = some c
  unit   : unitOf c.word = 1
  opcode : opcodeOf c.word = op
  free   : (s.room r).dwFree ≤ (s.wing (wingOf r)).periods
  pred   : c.pred = true

/-- What a command that reads the Pantry leaves in the gc it starts: the Pantry's bytes, tags and bank control, the Hatch, the
vector registers and masks, both buffers of every tile, the scalar counters and predicate bits, the latch words, the
declarations and Mailslots, and the Room's stores. -/
def Room.keeps (x y : Room) : Prop :=
  x.pan.mem = y.pan.mem ∧ x.pan.tags = y.pan.tags ∧ x.pan.own = y.pan.own ∧ x.pan.gated = y.pan.gated ∧
    x.hatch = y.hatch ∧ x.vec.regs = y.vec.regs ∧ x.vec.vm = y.vec.vm ∧ x.mx.act = y.mx.act ∧ x.mx.shd = y.mx.shd ∧
    x.seq.sc = y.seq.sc ∧ x.seq.pb = y.seq.pb ∧ x.latch.words = y.latch.words ∧ x.comm = y.comm ∧ x.prog = y.prog

/-- Every line that a command reads in its start gc is ready: its tag is NONE or FULL (R426). -/
def State.linesReady (s : State) (r : RoomId) (lines : List Nat) : Prop :=
  ∀ l ∈ lines, (s.room r).tagAt l (s.cyc r) = 0 ∨ (s.room r).tagAt l (s.cyc r) = 3

/-- The numbers of running commands are below the next one. -/
def Room.runsBelow (rm : Room) : Prop := ∀ u ∈ rm.runs, u.id < rm.nextRun

/-- The pending effect of a command that starts now. -/
def State.pendOf (s : State) (r : RoomId) (c : QCmd) (delay : Nat) (e : Eff) : Pend :=
  { due := s.cyc r + delay, start := s.cyc r, word := c.word, eff := e }

/-- Lane `l` of a vector register. -/
def Room.lane (rm : Room) (reg l : Nat) : BitVec 32 := sget rm.vec.regs (256 * reg + l)

/-- Lane `l` of operand B of a layout-A command (R258, R259): a register's, IMM, or a scalar counter, which a floating-point
command converts to FP32. -/
def Room.laneB (rm : Room) (float : Bool) (c : BitVec 128) (l : Nat) : BitVec 32 :=
  if !(bit c 67) then rm.lane (field c 48 6) l
  else if !(bit c 68) then c.extractLsb' 96 32
  else if float then intToF32 (rm.scOf (field c 96 4)).toInt
  else (rm.scOf (field c 96 4)).extractLsb' 0 32

/-- What a layout-A command with the issue pipe free and no fault of R295 does (R251, R252, R260): it leaves the queue, takes the
pipe for 1 gc, and `lat` gc later its 256 result lanes, whose lane `l` is `f` of the Room, its word and `l`, are written to
VD in the lanes that its mask register enables; nothing else changes but the trace, the debug log and, with flags, the
format status. -/
def VecEffect (i : RoomId → QCmd → Instr) (op lat : Nat) (f : Room → BitVec 128 → Nat → BitVec 32) : Prop :=
  ∀ (s : State) (r : RoomId) (c : QCmd), UnitDue s r 4 op c → (s.room r).vec.free ≤ s.cyc r →
    layoutAErr s.tabs op c.word = none → (s.room r).wf = true →
    ∃ tr sm vals, exec (i r c) s = .next { s.setRoom r { (s.room r).started s r 4 c lat tr with
        vec := { (s.room r).vec with free := s.cyc r + 1, issueGc := satAdd (s.room r).vec.issueGc 1 }
        pend := (s.room r).pend ++ s.endTrace r 4 c lat ++
          [s.pendOf r c lat (.vreg (field c.word 32 6) ((s.room r).vmOf (field c.word 64 3)) vals)] } with smoke := sm } ∧
      vals.length = 256 ∧ ∀ l, l < 256 → vals.getD l 0 = f (s.room r) c.word l

/-- A delivered Stairwell message is due (R798, R731): its record may be queued, its origin is another rank of the job, and it
holds the right that the message needs. -/
structure StwDue (s : State) (m : StwMsg) (right : Option Nat) : Prop where
  queue : s.gbRoom = true
  rank  : (s.porch 0).rankOk m.src.toNat = true
  other : m.src ≠ s.ownRank
  right : ∀ r ∈ right, s.granted 4 m.src.toNat r = true

/-- The state in which the effect of a delivered message is taken (R625, R812): it is counted, it has left the port's buffer,
and a broadcast is on its way to the other ranks. -/
def State.heard (s : State) (sop : Nat) (m : StwMsg) : State :=
  let w := s.thr.stw
  let t := { s with thr := { s.thr with stw := { w with
    received := satAdd w.received 1
    inbox := match s.stwArrived sop m with
      | some p => delFirst (fun q => decide (q = p)) w.inbox
      | none => w.inbox } } }
  match s.stwArrived sop m with
  | some p =>
    if m.bcast then stwForward p (stwBody sop m.rtm m.seq m.a.toNat m.b.toNat m.c.toNat m.data) t else t
  | none => t

/-- A management access of a port may be served (R731, R789 to R791): the device has booted, a record may be queued, and the
origin holds every right of the list. -/
structure PortDue (s : State) (o : Origin) (rights : List Nat) : Prop where
  queue  : s.gbRoom = true
  booted : s.preBoot = false
  rights : ∀ r ∈ rights, s.may o r = true

/-- A device address as a command carries it. -/
def devAddr (n : Nat) : BitVec 48 := BitVec.ofNat 48 n

end Sys2Proof.Machine
end

