-- ==== Sys2Proof/Certificates/Slice0/Obligations.lean ====
section
/-! DEFINITION. What is stated about the machine. -/

open Sys2Proof Sys2Proof.Machine

/-! ## The sequencer -/

/-- R322, R323, R324: SSET writes IMM to SC[SD]; SADD, SSUB, SMUL, SAND, SOR and SSHR write the sum, difference, product, AND,
OR and logical right shift of SC[SA] and operand B, modulo 2^64; nothing else of the package changes but the Room's trace.
R320, R322, R323: SCMP writes the outcome of its comparison to PB[PD]; PSET writes bit n of its values to PB[n] for
each n its mask names; PB0 is never written, and no other predicate bit changes. -/
def Obligations.SequencerComputes : Prop :=
  (SeqEffect .sset 1 (fun w q => q.set (field w 32 4) (w.extractLsb' 64 64)) ∧
   SeqEffect .sadd 2 (fun w q => q.set (field w 32 4) (q.get (field w 36 4) + seqB q w)) ∧
   SeqEffect .ssub 3 (fun w q => q.set (field w 32 4) (q.get (field w 36 4) - seqB q w)) ∧
   SeqEffect .smul 4 (fun w q => q.set (field w 32 4) (q.get (field w 36 4) * seqB q w)) ∧
   SeqEffect .sand 5 (fun w q => q.set (field w 32 4) (q.get (field w 36 4) &&& seqB q w)) ∧
   SeqEffect .sor 6 (fun w q => q.set (field w 32 4) (q.get (field w 36 4) ||| seqB q w)) ∧
   SeqEffect .sshr 7 (fun w q => q.set (field w 32 4) (q.get (field w 36 4) >>> ((seqB q w).toNat % 64)))) ∧
  (∀ (s : State) (r : RoomId) (c : QCmd) (last : Bool) (rest : List SeqCmd), (s.room r).seq.midBody rest →
     (SeqDue s r 8 c last rest →
       let q := (s.room r).seq
       let a := q.get (field c.word 36 4)
       let b := seqB q c.word
       let hit := match field c.word 45 3 with
         | 0 => decide (a = b)
         | 1 => decide (a ≠ b)
         | 2 => decide (a.toInt < b.toInt)
         | 3 => decide (a.toInt ≤ b.toInt)
         | 4 => decide (a.toInt > b.toInt)
         | 5 => decide (a.toInt ≥ b.toInt)
         | 6 => decide (a.toNat < b.toNat)
         | _ => decide (a.toNat ≥ b.toNat)
       ∃ tr pb, exec (.scmp r c) s = .next (s.setRoom r { s.room r with
           trace := tr, pend := (s.room r).pend ++ s.endTrace r 0 c 1, seq := { q with now := rest, pb := pb } }) ∧
         bit pb (field c.word 48 3) = hit ∧ ∀ n, n < 8 → n ≠ field c.word 48 3 → bit pb n = bit q.pb n) ∧
     (SeqDue s r 9 c last rest →
       let q := (s.room r).seq
       ∃ tr pb, exec (.pset r c) s = .next (s.setRoom r { s.room r with
           trace := tr, pend := (s.room r).pend ++ s.endTrace r 0 c 1, seq := { q with now := rest, pb := pb } }) ∧
         bit pb 0 = bit q.pb 0 ∧
         ∀ n, 1 ≤ n → n < 8 → bit pb n = if bit c.word (64 + n) then bit c.word (72 + n) else bit q.pb n))

/-- R318, R323, R330: SNOP changes nothing but the trace, and with a reserved field, or as a reserved UNIT or OPCODE with a true
predicate, it also raises SEQ_FIELD; QDEPTH writes the depth that the named unit's queue had at the start of
the gc, or 0 for the sequencer and reserved units; SVGET writes a sign-extended lane; DSET leaves the descriptor store as
it is in its issue gc, and its field is in the entry, and in no other, at the start of the next. -/
def Obligations.SequencerReadsAndDset : Prop :=
  SeqEffect .snop 0 (fun _ q => q) ∧
  (∀ (s : State) (r : RoomId) (c : QCmd) (last : Bool) (rest : List SeqCmd),
    (s.room r).on = true → s.advancing (wingOf r) = true → (s.room r).seq.now = { cmd := c, last := last } :: rest →
    c.pred = true → (s.room r).seq.midBody rest →
    (seqReserved c.word = true ∨ (unitOf c.word = 0 ∧ opcodeOf c.word = 0 ∧ seqBad 0 c.word = true)) →
    ∃ tr rp, exec (.snop r c) s = .next { s.setRoom r { s.room r with
        trace := tr, pend := (s.room r).pend ++ s.endTrace r (unitOf c.word) c 1,
        seq := { (s.room r).seq with now := rest, seqFault := satAdd (s.room r).seq.seqFault 1 } } with
        flt := { s.flt with queue := s.flt.queue ++ [rp] } } ∧ rp.code = 0x3001#16 ∧ rp.tag = tagOf c.word) ∧
  SeqEffect .qdepth 0x0C (fun w q => q.set (field w 32 4)
    (if 1 ≤ field w 64 4 ∧ field w 64 4 ≤ 6 then BitVec.ofNat 64 (q.qdVis.toList.getD (field w 64 4) 0) else 0)) ∧
  (∀ (s : State) (r : RoomId) (c : QCmd) (last : Bool) (rest : List SeqCmd), (s.room r).seq.midBody rest →
    (SeqDue s r 0x0D c last rest →
      ∃ tr, exec (.svget r c) s = .next (s.setRoom r { s.room r with
        trace := tr, pend := (s.room r).pend ++ s.endTrace r 0 c 1,
        seq := { (s.room r).seq with now := rest }.set (field c.word 32 4)
          ((sget (s.room r).vec.regs (256 * field c.word 52 6 + field c.word 64 8)).signExtend 64) })) ∧
    (SeqDue s r 0x0E c last rest →
      let d : DsetWr := { entry := field c.word 64 11, lsb := field c.word 75 8, width := field c.word 83 6 + 1,
                          val := ((s.room r).seq.get (field c.word 36 4)).toNat }
      ∃ tr, exec (.dset r c) s = .next (s.setRoom r { s.room r with
        trace := tr, pend := (s.room r).pend ++ s.endTrace r 0 c 1, seq := { (s.room r).seq with now := rest },
        prog := { (s.room r).prog with dsets := (s.room r).prog.dsets ++ [d] } }))) ∧
  (∀ (p : Prog) (d : DsetWr), swf p.desc = true →
    sget (p.applyDset d).desc d.entry = setField (sget p.desc d.entry) d.lsb d.width d.val ∧
    ∀ e, e ≠ d.entry → sget (p.applyDset d).desc e = sget p.desc e)

/-- R326, R327, R359: a LOOP at a depth below 4 whose body lies inside the enclosing one starts a loop over the next NBUN
bundles with COUNT_M1 more iterations; at depth 4, or with a body that leaves the enclosing one, it raises SEQ_STRUCT and
the Room issues no further bundle.
R326: when the last sequencer command of the last bundle of the innermost loop's body is a SNOP, SC[INCSC] is increased by
INCV if INCEN is 1, and while iterations are left bundle b+1 comes again. -/
def Obligations.LoopsStartAndRepeat : Prop :=
  (∀ (s : State) (r : RoomId) (c : QCmd) (last : Bool) (rest : List SeqCmd),
     SeqDue s r 0x10 c last rest → field c.word 12 4 = 0 →
     let q := (s.room r).seq
     let cur := q.bidx - 1
     let nbun := field c.word 80 8
     let inside := q.loops.length < 4 ∧ ∀ f ∈ q.loops.head?, cur + nbun ≤ f.last
     (inside →
       ∃ tr, exec (.loop r c) s = .next (s.setRoom r { s.room r with
         trace := tr, pend := (s.room r).pend ++ s.endTrace r 0 c 1,
         seq := { q with
           now := rest
           loops := { tag := tagOf c.word, first := cur + 1, last := cur + nbun, left := field c.word 64 16, ptr := q.bptr,
                      incsc := field c.word 88 4, incen := bit c.word 92,
                      incv := c.word.extractLsb' 96 16 } :: q.loops } })) ∧
     (¬inside →
       ∃ t rp, exec (.loop r c) s = .next t ∧ (t.room r).seq.structStop = true ∧ (t.room r).seq.issuing = false ∧
         (t.room r).seq.seqFault = satAdd q.seqFault 1 ∧ (t.room r).queues = (s.room r).queues ∧
         (t.room r).pan = (s.room r).pan ∧ t.flt.queue = s.flt.queue ++ [rp] ∧ rp.code = 0x3002#16 ∧
         rp.tag = tagOf c.word)) ∧
  (∀ (s : State) (r : RoomId) (c : QCmd) (last : Bool) (f : LoopFrame) (t : List LoopFrame),
     SeqDue s r 0 c last [] → (s.room r).seq.issuing = true → (s.room r).seq.loops = f :: t →
     f.last = (s.room r).seq.bidx - 1 → 0 < f.left →
     let q := (s.room r).seq
     let q' := if f.incen then q.set f.incsc (q.get f.incsc + f.incv.signExtend 64) else q
     ∃ tr, exec (.snop r c) s = .next (s.setRoom r { s.room r with
       trace := tr, pend := (s.room r).pend ++ s.endTrace r 0 c 1,
       seq := { q' with now := [], loops := { f with left := f.left - 1 } :: t, bptr := f.ptr, bidx := f.first } }))

/-- R329: a TEND that is the last command of its bundle, outside every loop, selects NEXT_T when PB[PD] is 1 and NEXT_F
otherwise, and the sequencer issues no further bundle in the tick; 0xFFFF ends the schedule (R306). -/
def Obligations.TendSelectsSegment : Prop :=
  ∀ (s : State) (r : RoomId) (c : QCmd) (rest : List SeqCmd),
    SeqDue s r 0x11 c true rest → field c.word 12 4 = 0 → (s.room r).seq.loops = [] →
    (field c.word 64 16 = 0xFFFF ∨ field c.word 64 16 < (s.room r).prog.segs.length) →
    (field c.word 80 16 = 0xFFFF ∨ field c.word 80 16 < (s.room r).prog.segs.length) →
    let q := (s.room r).seq
    let sel := if bit q.pb (field c.word 48 3) then field c.word 64 16 else field c.word 80 16
    ∃ tr, exec (.tend r c) s = .next (s.setRoom r { s.room r with
      trace := tr, pend := (s.room r).pend ++ s.endTrace r 0 c 1,
      seq := { q with now := rest, next := BitVec.ofNat 16 sel, issuing := false, ended := q.ended || sel == 0xFFFF } })

/-- R308, R310, R313, R314: in its issue gc a bundle without a breach of its form places each command of the units 1 to 6 at the end
of its unit's queue with the predicate as the bits stand at the start of the gc, keeps the sequencer's commands for this gc in their order, and the
next bundle begins directly after it; nothing else of the Room changes but its trace. -/
def Obligations.BundleIssues : Prop :=
  ∀ (s : State) (r : RoomId) (b : Bundle), BundleDue s r b → BundleGood (s.room r).seq b →
    ∃ sq qs tr sm, exec (.bundleIssue r) s =
        .next { s.setRoom r { s.room r with seq := sq, queues := qs, trace := tr } with smoke := sm } ∧
      sq.lastIssue = s.cyc r ∧ sq.offNow = (s.room r).seq.bptr ∧ sq.fresh = false ∧
      sq.now.map (fun x => x.cmd.word) = b.cmds.filter (fun c => unitOf c == 0) ∧
      (∀ u, 1 ≤ u → u ≤ 6 → qs.toList.getD u [] = (s.room r).queue u ++
        (b.cmds.filter (fun c => unitOf c == u)).map (fun c =>
          { word := c, pred := xor (bit (s.room r).seq.pbVis (field c 12 3) || field c 12 3 == 0) (bit c 15) })) ∧
      ((s.room r).seq.loops = [] ∨ sq.now ≠ [] → sq.bptr = (s.room r).seq.bptr + 8 + 16 * b.cmds.length)

/-- R315, R328: a sequencer command other than LOOP and TEND whose predicate is false changes nothing but its Room's trace. -/
def Obligations.FalsePredicateSkips : Prop :=
  ∀ (s : State) (r : RoomId) (c : QCmd) (last : Bool) (rest : List SeqCmd) (i : RoomId → QCmd → Instr) (op : Nat),
    (i, op) ∈ [(Instr.snop, 0), (Instr.sset, 1), (Instr.sadd, 2), (Instr.ssub, 3), (Instr.smul, 4), (Instr.sand, 5),
      (Instr.sor, 6), (Instr.sshr, 7), (Instr.scmp, 8), (Instr.pset, 9), (Instr.qdepth, 0x0C), (Instr.svget, 0x0D),
      (Instr.dset, 0x0E)] →
    (s.room r).on = true → s.advancing (wingOf r) = true → (s.room r).seq.now = { cmd := c, last := last } :: rest →
    unitOf c.word = 0 → opcodeOf c.word = op → c.pred = false → (s.room r).seq.midBody rest →
    ∃ tr, exec (i r c) s = .next (s.setRoom r { s.room r with
      trace := tr, pend := (s.room r).pend ++ s.endTrace r 0 c 1, seq := { (s.room r).seq with now := rest } })

/-! ## Pantry control -/

/-- R429: POWN and PTAGCLR, at the head of the Pantry control queue with the lane free and no reserved field, leave the queue; the
ownership of the selected banks and the tags of the selected lines change from the gc after the start. A reserved field
raises PAN_FIELD instead (R462). Nothing else changes. -/
def Obligations.PantryOwnershipAndTags : Prop :=
  ∀ (s : State) (r : RoomId) (c : QCmd) (op : Nat) (i : RoomId → QCmd → Instr) (e : Eff),
    (op, i, e) ∈ [
      (1, Instr.pown, Eff.pown (c.word.extractLsb' 32 12) (bit c.word 44)),
      (4, Instr.ptagclr, Eff.ptag (field c.word 48 12) (field c.word 64 12 + 1)
        (if field c.word 76 2 = 0 then 1 else if field c.word 76 2 = 1 then 0 else 3))] →
    UnitDue s r 2 op c → (s.room r).panFree ≤ s.cyc r →
    (panBad op c.word = false →
      ∃ tr, exec (i r c) s = .next (s.setRoom r { (s.room r).started s r 2 c 1 tr with
        panFree := s.cyc r + 1, pend := (s.room r).pend ++ s.endTrace r 2 c 1 ++ [s.pendOf r c 1 e] })) ∧
    (panBad op c.word = true →
      ∃ tr rp, exec (i r c) s = .next { s.setRoom r { (s.room r).started s r 2 c 1 tr with panFree := s.cyc r + 1 } with
          flt := { s.flt with queue := s.flt.queue ++ [rp] } } ∧
        rp.code = 0x4006#16 ∧ rp.cls = 0#2 ∧ rp.lroom.toNat = r.val ∧ rp.tag = tagOf c.word ∧
        rp.body = [c.word.extractLsb' 0 64, c.word.extractLsb' 64 64])

/-- R423, R430: a PGATE that starts gates each selected bank: its lines lose their contents and take tag NONE; no line of
another bank changes.
R115, R430: a PWAKE that starts takes each selected gated bank out of gating; the bank is usable 300 advancing gc later, when
PANTRY_BANK_USABLE ends its waking. -/
def Obligations.BanksGateAndWake : Prop :=
  (∀ (s : State) (r : RoomId) (c : QCmd), UnitDue s r 2 2 c → (s.room r).panFree ≤ s.cyc r → panBad 2 c.word = false →
     (s.room r).wf = true →
     ∃ t, exec (.pgate r c) s = .next t ∧ t = s.setRoom r (t.room r) ∧
       (t.room r).pan.gated = (s.room r).pan.gated ||| c.word.extractLsb' 32 12 ∧
       (t.room r).pan.own = (s.room r).pan.own ∧ (t.room r).hatch = (s.room r).hatch ∧ (t.room r).vec = (s.room r).vec ∧
       (∀ line, line < 3072 → sget (t.room r).pan.tags line =
         if bit c.word (32 + line / 256) then 0 else sget (s.room r).pan.tags line) ∧
       (∀ a, a < 0xC0000 → sget (t.room r).pan.mem a =
         if bit c.word (32 + a / 0x10000) then 0 else sget (s.room r).pan.mem a)) ∧
  (∀ (s : State) (r : RoomId),
     (∀ c : QCmd, UnitDue s r 2 3 c → (s.room r).panFree ≤ s.cyc r → panBad 3 c.word = false →
       let m := c.word.extractLsb' 32 12 &&& (s.room r).pan.gated
       ∃ tr, exec (.pwake r c) s = .next (s.setRoom r { (s.room r).started s r 2 c 300 tr with
         panFree := s.cyc r + 1
         pan := { (s.room r).pan with
           gated := (s.room r).pan.gated &&& ~~~m, waking := (s.room r).pan.waking ||| m,
           wakeAt := Vector.ofFn fun (b : Fin 12) =>
             if bit m b.val then s.cyc r + 300 else (s.room r).pan.wakeAt[b.val] } })) ∧
     (∀ b : Fin 12, bit (s.room r).pan.waking b.val = true →
       ((s.room r).pan.wakeAt[b.val] ≤ s.cyc r →
         exec (.pantryBankUsable r b) s = .next (s.setRoom r { s.room r with
           pan := { (s.room r).pan with waking := (s.room r).pan.waking &&& ~~~(1#12 <<< b.val) } })) ∧
       (s.cyc r < (s.room r).pan.wakeAt[b.val] → exec (.pantryBankUsable r b) s = .next s)))

/-! ## The Dumbwaiter's queue -/

/-- R438 to R440: a DWFETCH (a DWPUT) whose context is idle and whose descriptor holds starts a stream of its requests, first issued
from 12 gc (profile 2) or 20 gc (otherwise) on, and each footprint line with tag NONE becomes EMPTY (FULL); no other line changes. -/
def Obligations.StreamsStart : Prop :=
  ∀ (s : State) (r : RoomId) (c : QCmd) (op : Nat) (i : RoomId → QCmd → Instr),
    (op, i) ∈ [(1, Instr.dwfetch), (2, Instr.dwput)] → DwDue s r op c →
    (s.room r).dw.active (field c.word 43 2) = false → swf (s.room r).pan.tags = true →
    let di := field c.word 32 11
    let d := streamOf ((s.room r).descOf di)
    (s.room r).descErr s.tabs di 2 c.word = none → rangeErr di (footRanges d) = none → dwFieldBad op c.word d.dir = false →
    ∃ tr tg fe st, exec (i r c) s = .next (s.setRoom r { (s.room r).started s r 1 c 1 tr with
        dwFree := (s.wing (wingOf r)).periods + 1
        pan := { (s.room r).pan with tags := tg, fetched := fe }
        dw := { (s.room r).dw with
          streams := (s.room r).dw.streams ++ [st], nextId := (s.room r).dw.nextId + 1 } }) ∧
      st.ctx = field c.word 43 2 ∧ st.fetch = decide (op = 1) ∧ st.tag = tagOf c.word ∧ st.bound = true ∧
      st.todo = streamReqs d ∧ st.infl = 0 ∧
      st.firstAt = s.cyc r + (if s.job.runProfile = 2 then 12 else 20) ∧ st.depth = d.depth ∧ st.dlen = bit c.word 45 ∧
      st.dlatch = field c.word 48 6 ∧ st.dgen = c.word.extractLsb' 56 8 ∧
      ∀ line, sget tg line =
        if line ∈ footprint d ∧ sget (s.room r).pan.tags line = 0#2 then (if op = 1 then 1#2 else 3#2)
        else sget (s.room r).pan.tags line

/-- R437, R493, R498, R499: a DWHALT takes effect on its context from the next gc; an XPOSE, a GATHER or a SCATTER of a Room with no
engine operation of its own joins the queue of its engine in the Room's Cellar, and the Pantry lines of a GATHER (a
SCATTER) with tag NONE become EMPTY (FULL). -/
def Obligations.HaltAndEngineCommands : Prop :=
  ∀ (s : State) (r : RoomId) (c : QCmd),
    (DwDue s r 3 c → dwFieldBad 3 c.word false = false →
      ∃ tr, exec (.dwhalt r c) s = .next (s.setRoom r { (s.room r).started s r 1 c 1 tr with
        dwFree := (s.wing (wingOf r)).periods + 1
        pend := (s.room r).pend ++ s.endTrace r 1 c 1 ++ [s.pendOf r c 1 (.halt (field c.word 43 2))] })) ∧
    (∀ (op : Nat) (i : RoomId → QCmd → Instr), (op, i) ∈ [(8, Instr.xpose), (9, Instr.gather), (10, Instr.scatter)] →
      DwDue s r op c → (s.room r).dw.eng = none → swf (s.room r).pan.tags = true →
      let d1 := field c.word 32 11
      let d2 := field c.word 64 11
      let x := (s.room r).descOf d1
      let y := (s.room r).descOf d2
      (s.room r).descErr s.tabs d1 2 c.word = none → (s.room r).descErr s.tabs d2 2 c.word = none →
      (op = 8 ∨ rangeErr d1 (footRanges { streamOf x with pring := 0 }) = none) → xgBad op c.word x y = false →
      ∃ tr tg fe k, exec (i r c) s = .next { s.setRoom r { (s.room r).started s r 1 c 1 tr with
            dwFree := (s.wing (wingOf r)).periods + 1
            pan := { (s.room r).pan with tags := tg, fetched := fe }
            dw := { (s.room r).dw with eng := some {
              xpose := op == 8, cellar := (wingOf r).val, tag := tagOf c.word, dlen := bit c.word 45,
              dlatch := field c.word 48 6, dgen := c.word.extractLsb' 56 8 } } }
          with mem := { s.mem with cellars := s.mem.cellars.set (wingOf r).val k } } ∧
        (let o : EngOp := { room := r, op := op, word := c.word, desc := x, desc2 := y }
         let k0 := s.mem.cellars[(wingOf r).val]
         k = if op = 8 then { k0 with xpose := { k0.xpose with queue := k0.xpose.queue ++ [o] } }
             else { k0 with gs := { k0.gs with queue := k0.gs.queue ++ [o] } }) ∧
        ∀ line, sget tg line =
          if op ≠ 8 ∧ line ∈ footprint (streamOf x) ∧ sget (s.room r).pan.tags line = 0#2 then
            (if op = 9 then 1#2 else 3#2)
          else sget (s.room r).pan.tags line)

/-! ## The matrix engine -/

/-- R205, R210 to R213, R227: a stream command at the head of the matrix queue whose lane is free, whose descriptor
holds, whose rows lie in the Pantry, and whose lines read in the start gc are ready, starts: it leaves the queue, takes the
stream lane for E gc with its last entry gc D + E later, and enters the array D gc later; neither tile nor Hatch changes
in the start gc. -/
def Obligations.MatrixStreamsStart : Prop :=
  ∀ (s : State) (r : RoomId) (c : QCmd) (op : Nat) (i : RoomId → QCmd → Instr),
    (op, i) ∈ [(4, Instr.mm128), (5, Instr.mmt), (6, Instr.mm64p), (7, Instr.mm64q)] → UnitDue s r 3 op c →
    let rm := s.room r
    let tm := mmTime rm s.tabs c.word
    let t := tensorOf (rm.descOf (field c.word 32 11))
    let bits := ((fmtOf s.tabs.ptab t.fmt).map (·.elem.bits)).getD 8
    let m := min (field c.word 56 7 + 1) t.yext
    rm.mx.strFree ≤ s.cyc r → rm.mx.strLast ≤ s.cyc r + tm.d →
    rm.descErr s.tabs (field c.word 32 11) 1 c.word = none →
    (∀ y, y < m → ∀ p ∈ mmParts op tm.cls t, (rowRange bits t p.1 p.2 y).1 + (rowRange bits t p.1 p.2 y).2 ≤ 0xC0000 ∧
      ∀ o ∈ rowScaleOffs t 0 p.1 p.2 y, o < 0xC0000) →
    (∀ g ∈ mmLines op m tm.cls bits t, g.1 = 0 → s.linesReady r (gcLines g.2.1 g.2.2)) →
    ∃ x fl sm, exec (i r c) s = .next { s.setRoom r x with flt := fl, smoke := sm } ∧
      x.queue 3 = (rm.queue 3).drop 1 ∧ x.mx = { rm.mx with strFree := s.cyc r + tm.e, strLast := s.cyc r + tm.d + tm.e } ∧
      x.keeps rm ∧ x.vec = rm.vec ∧ x.out = rm.out ∧ s.pendOf r c tm.d (.mmEntry rm.nextRun c) ∈ x.pend ∧
      ∃ u ∈ x.runs, u.id = rm.nextRun ∧ u.cmd = c ∧ u.start = s.cyc r ∧ u.cls = tm.cls ∧ u.e = tm.e

/-- R206, R213, R220: an MLOAD without a fault whose first row's lines are ready starts: it leaves the queue and takes the load
lane; D gc later its buffers become LOADING, and D + OCC gc later READY. -/
def Obligations.TileLoadStarts : Prop :=
  ∀ (s : State) (r : RoomId) (c : QCmd), UnitDue s r 3 1 c →
    let rm := s.room r
    let t := tensorOf (rm.descOf (field c.word 32 11))
    let d := decLat s.tabs t.fmt
    let g := regionOf (field c.word 43 3)
    let occ := if field c.word 43 3 = 0 then 128 else 64
    let bits := ((fmtOf s.tabs.ptab t.fmt).map (·.elem.bits)).getD 8
    rm.mx.loadFree ≤ s.cyc r → rm.mx.loadLast ≤ s.cyc r + d → mloadErr rm s.tabs c.word = none →
    s.linesReady r ((rowLines bits t (if bit c.word 46 then 2 else 1) 0 t.xext 0).1 ++
      (rowLines bits t (if bit c.word 46 then 2 else 1) 0 t.xext 0).2) →
    ∃ x fl sm, exec (.mload r c) s = .next { s.setRoom r x with flt := fl, smoke := sm } ∧
      x.queue 3 = (rm.queue 3).drop 1 ∧
      x.mx = { rm.mx with loadFree := s.cyc r + occ, loadLast := s.cyc r + d + occ } ∧
      x.keeps rm ∧ x.vec = rm.vec ∧ (∃ bufs, s.pendOf r c d (.mxBegin bufs (s.cyc r + d + occ)) ∈ x.pend ∧ bufs.map (·.1) = g.1) ∧
      s.pendOf r c (max (t.yext - 1) d) (.mxFill rm.nextRun) ∈ x.pend

/-- R220, R224, R226, R233: at MLOAD_TILE_READY the LOADING shadow buffers of every load whose time has come become READY;
an MSWAP exchanges the two buffers of each quadrant it selects, and none if one of them is LOADING; a RELEASING slot whose
time has come becomes VECTOR. -/
def Obligations.TilesSwapAndSlotsRelease : Prop :=
  ∀ (s : State) (r : RoomId),
    (∃ shd, exec (.mloadTileReady r) s = .next (s.setRoom r { s.room r with mx := { (s.room r).mx with
        shd := shd, loads := (s.room r).mx.loads.filter fun l => decide (s.cyc r < l.due) } }) ∧
      ∀ q : Fin 4, shd[q] =
        if (s.room r).mx.shd[q].st = 1 ∧ ∃ l ∈ (s.room r).mx.loads, l.due ≤ s.cyc r ∧ bit l.quads q.val = true
        then { (s.room r).mx.shd[q] with st := 2 } else (s.room r).mx.shd[q]) ∧
    (∀ c : QCmd, UnitDue s r 3 2 c → (s.room r).mx.strFree ≤ s.cyc r → (s.room r).mx.strLast ≤ s.cyc r →
      field c.word 36 92 = 0 →
      let m := (s.room r).mx.settle (s.cyc r)
      ((∀ q : Fin 4, bit c.word (32 + q.val) = true → m.shd[q].st ≠ 1) →
        ∃ tr act shd, exec (.mswap r c) s = .next (s.setRoom r { (s.room r).started s r 3 c 1 tr with
            mx := { m with strFree := s.cyc r + 1, strLast := s.cyc r + 1, act := act, shd := shd } }) ∧
          ∀ q : Fin 4, act[q] = (if bit c.word (32 + q.val) then m.shd[q] else m.act[q]) ∧
            shd[q] = (if bit c.word (32 + q.val) then m.act[q] else m.shd[q])) ∧
      ((∃ q : Fin 4, bit c.word (32 + q.val) = true ∧ m.shd[q].st = 1) →
        ∃ t, exec (.mswap r c) s = .next t ∧ (t.room r).mx.act = m.act ∧ (t.room r).mx.shd = m.shd ∧
          (t.room r).mx.skipFault = satAdd m.skipFault 1 ∧
          ∃ rp, t.flt.queue = s.flt.queue ++ [rp] ∧ rp.code = 0x2013#16 ∧ rp.tag = tagOf c.word)) ∧
    (∀ slot : Fin 4, (s.room r).hatch.slot slot.val = 2 → (∃ e ∈ (s.room r).hatch.rel, e.1 = slot.val ∧ e.2 ≤ s.cyc r) →
      ∃ h, exec (.hatchSlotToVector r slot) s = .next (s.setRoom r { s.room r with hatch := h }) ∧
        h.mem = (s.room r).hatch.mem ∧ h.slot slot.val = 3 ∧
        ∀ q : Fin 4, q ≠ slot → h.slot q.val = (s.room r).hatch.slot q.val)

/-! ## The vector engine -/

/-- R260, R261: the lane results of VADD, VSUB, VMUL, VFMA, VMAX, VMIN, VABS, VNEG and VI2F, 4 gc after the start.
R260: the lane results of the integer and bit operations, 4 gc after the start. -/
def Obligations.VectorLanes : Prop :=
  (let a (rm : Room) (w : BitVec 128) (l : Nat) := rm.lane (field w 40 6) l
   let b (rm : Room) (w : BitVec 128) (l : Nat) := rm.laneB true w l
   VecEffect .vadd 0x10 4 (fun rm w l => f32add (a rm w l) (b rm w l)) ∧
   VecEffect .vsub 0x11 4 (fun rm w l => f32add (a rm w l) (f32neg (b rm w l))) ∧
   VecEffect .vmul 0x12 4 (fun rm w l => f32mul (a rm w l) (b rm w l)) ∧
   VecEffect .vfma 0x13 4 (fun rm w l => f32fma (a rm w l) (b rm w l) (rm.lane (field w 56 6) l)) ∧
   VecEffect .vmax 0x14 4 (fun rm w l => fMax (a rm w l) (b rm w l)) ∧
   VecEffect .vmin 0x15 4 (fun rm w l => fMin (a rm w l) (b rm w l)) ∧
   VecEffect .vabs 0x16 4 (fun rm w l => if (ofF32 (a rm w l)).isNan then 0x7FC00000#32 else a rm w l &&& 0x7FFFFFFF#32) ∧
   VecEffect .vneg 0x17 4 (fun rm w l => if (ofF32 (a rm w l)).isNan then 0x7FC00000#32 else f32neg (a rm w l)) ∧
   VecEffect .vi2f 0x2E 4 (fun rm w l => intToF32 (a rm w l).toInt)) ∧
  (let a (rm : Room) (w : BitVec 128) (l : Nat) := rm.lane (field w 40 6) l
   let b (rm : Room) (w : BitVec 128) (l : Nat) := rm.laneB false w l
   VecEffect .viadd 0x20 4 (fun rm w l => a rm w l + b rm w l) ∧
   VecEffect .visub 0x21 4 (fun rm w l => a rm w l - b rm w l) ∧
   VecEffect .vimul 0x22 4 (fun rm w l => a rm w l * b rm w l) ∧
   VecEffect .vand 0x23 4 (fun rm w l => a rm w l &&& b rm w l) ∧
   VecEffect .vor 0x24 4 (fun rm w l => a rm w l ||| b rm w l) ∧
   VecEffect .vxor 0x25 4 (fun rm w l => a rm w l ^^^ b rm w l) ∧
   VecEffect .vshl 0x26 4 (fun rm w l => a rm w l <<< ((b rm w l).toNat % 32)) ∧
   VecEffect .vshr 0x27 4 (fun rm w l => a rm w l >>> ((b rm w l).toNat % 32)) ∧
   VecEffect .vsar 0x28 4 (fun rm w l => (a rm w l).sshiftRight ((b rm w l).toNat % 32)) ∧
   VecEffect .vimax 0x29 4 (fun rm w l => if (a rm w l).toInt < (b rm w l).toInt then b rm w l else a rm w l) ∧
   VecEffect .vimin 0x2A 4 (fun rm w l => if (a rm w l).toInt < (b rm w l).toInt then a rm w l else b rm w l))

/-- R260, R262, R263: VSEL, VROT and VBCAST move lanes; VCMP writes, 4 gc after its start, the bits of its mask register in the lanes that its
write mask enables, and leaves every vector register. -/
def Obligations.VectorMovesAndCompare : Prop :=
  VecEffect .vsel 0x19 4 (fun rm w l =>
    if bit (rm.vmOf (field w 56 3)) l then rm.lane (field w 40 6) l else rm.laneB false w l) ∧
  VecEffect .vrot 0x30 4 (fun rm w l =>
    if bit w 69 then rm.lane (field w 40 6) (l / 128 * 128 + (l % 128 + field w 96 8) % 128)
    else rm.lane (field w 40 6) ((l + field w 96 8) % 256)) ∧
  VecEffect .vbcast 0x31 4 (fun rm w _ => rm.lane (field w 40 6) (field w 96 8)) ∧
  (∀ (s : State) (r : RoomId) (c : QCmd), UnitDue s r 4 0x18 c → (s.room r).vec.free ≤ s.cyc r →
    layoutAErr s.tabs 0x18 c.word = none → (s.room r).wf = true →
    ∃ tr sm bits, exec (.vcmp r c) s = .next { s.setRoom r { (s.room r).started s r 4 c 4 tr with
        vec := { (s.room r).vec with free := s.cyc r + 1, issueGc := satAdd (s.room r).vec.issueGc 1 }
        pend := (s.room r).pend ++ s.endTrace r 4 c 4 ++
          [s.pendOf r c 4 (.vmask (field c.word 32 3) ((s.room r).vmOf (field c.word 64 3)) bits)] } with smoke := sm } ∧
      ∀ l, l < 256 → bit bits l =
        fCmp (field c.word 56 3) ((s.room r).lane (field c.word 40 6) l) ((s.room r).laneB true c.word l))

/-- R260, R278, R279, R284: VRSUM, VRMAX, VRMIN and VSCAN write their tree and prefix results 10 gc after the start; VRND and VF2I, which set the
format status from the lanes their mask enables, 4 gc after it, and VCRV, whose curve table holds no error, 12 gc (profile 2: 8 gc) after it. -/
def Obligations.VectorReductionsAndConversions : Prop :=
  (∀ (op : Nat) (i : RoomId → QCmd → Instr),
    (op, i) ∈ [(0x34, Instr.vrsum), (0x35, Instr.vrmax), (0x36, Instr.vrmin)] →
    VecEffect i op 10 (fun rm w l =>
      (reduceLanes op (bit w 69) (rm.vmOf (field w 64 3)) ((List.range 256).map (rm.lane (field w 40 6)))).getD l 0)) ∧
  VecEffect .vscan 0x37 10 (fun rm w l =>
    (scanLanes (bit w 69) (rm.vmOf (field w 64 3)) ((List.range 256).map (rm.lane (field w 40 6)))).getD l 0) ∧
  (∀ (s : State) (r : RoomId) (c : QCmd) (op : Nat) (i : RoomId → QCmd → Instr),
    (op, i) ∈ [(0x2C, Instr.vrnd), (0x2D, Instr.vf2i)] → UnitDue s r 4 op c → (s.room r).vec.free ≤ s.cyc r →
    layoutAErr s.tabs op c.word = none → (s.room r).wf = true →
    let mask := (s.room r).vmOf (field c.word 64 3)
    let el := ((fmtOf s.tabs.ptab (field c.word 72 8)).map (·.elem)).getD (.flt fp32)
    let f (l : Nat) := if op = 0x2C then
        laneRnd el (field c.word 80 2) (bit c.word 82) ((s.room r).lane (field c.word 40 6) l)
      else laneF2i (field c.word 80 2) ((s.room r).lane (field c.word 40 6) l)
    ∃ t x vals, exec (i r c) s = .next t ∧ t.room r = x ∧ (∀ q, q ≠ r → t.room q = s.room q) ∧
      x.pend = (s.room r).pend ++ s.endTrace r 4 c 4 ++ [s.pendOf r c 4 (.vreg (field c.word 32 6) mask vals)] ∧
      x.vec.regs = (s.room r).vec.regs ∧ x.pan = (s.room r).pan ∧ x.hatch = (s.room r).hatch ∧ vals.length = 256 ∧
      (∀ l, l < 256 → vals.getD l 0 = (f l).1) ∧
      ∀ b, b < 8 → bit x.fmt b = (bit (s.room r).fmt b ||
        (List.range 256).any fun l => bit mask l && bit (f l).2 b)) ∧
  (∀ (s : State) (r : RoomId) (c : QCmd) (tb : CTable), UnitDue s r 4 0x3C c → (s.room r).vec.free ≤ s.cyc r →
    layoutAErr s.tabs 0x3C c.word = none → s.tabs.ctab.toList.getD (field c.word 96 5) none = some tb →
    s.tabs.ctabDue = [] → (s.room r).wf = true →
    let lat := if s.job.runProfile = 2 then 8 else 12
    let mask := (s.room r).vmOf (field c.word 64 3)
    ∃ t x vals, exec (.vcrv r c) s = .next t ∧ t.room r = x ∧ (∀ q, q ≠ r → t.room q = s.room q) ∧
      x.pend = (s.room r).pend ++ s.endTrace r 4 c lat ++ [s.pendOf r c lat (.vreg (field c.word 32 6) mask vals)] ∧
      vals.length = 256 ∧ ∀ l, l < 256 → bit mask l = true →
        vals.getD l 0 = (curveEval tb ((s.room r).lane (field c.word 40 6) l)).1)

/-- R274 to R276, R285: VHLD reads a row pair (or one row and zeros) of a VECTOR slot, written 2 gc after its start; VHST writes its
lanes in the gc 2 after it; VHREL frees a VECTOR slot from the next gc and does nothing to a FREE one; VRNG writes four
registers of draws 10 gc after it. -/
def Obligations.VectorHatchAndGenerator : Prop :=
  ∀ (s : State) (r : RoomId) (c : QCmd), (s.room r).vec.free ≤ s.cyc r → (s.room r).wf = true →
    let rm := s.room r
    let slot := field c.word 43 2
    let mask := rm.vmOf (field c.word 60 3)
    let vec : Vec := { rm.vec with free := s.cyc r + 1, issueGc := satAdd rm.vec.issueGc 1 }
    (UnitDue s r 4 4 c → layoutBBad 4 c.word = false → rm.hatch.slotAt slot (s.cyc r) = 3 →
      ∃ tr sm vals, exec (.vhld r c) s = .next { s.setRoom r { rm.started s r 4 c 2 tr with
          vec := vec
          pend := rm.pend ++ s.endTrace r 4 c 2 ++ [s.pendOf r c 2 (.vreg (field c.word 48 6) mask vals)] } with
          smoke := sm } ∧
        ∀ l, l < 256 → vals.getD l 0 =
          if bit c.word 45 then
            (if l < 128 then sget rm.hatch.mem (16384 * slot + 128 * field c.word 88 7 + l) else 0)
          else sget rm.hatch.mem (16384 * slot + 256 * field c.word 88 7 + l)) ∧
    (UnitDue s r 4 5 c → layoutBBad 5 c.word = false →
      ∃ tr sm vals row, exec (.vhst r c) s = .next { s.setRoom r { rm.started s r 4 c 2 tr with
          vec := { rm.vec with free := s.cyc r + 1 }
          pend := rm.pend ++ s.endTrace r 4 c 2 ++ [s.pendOf r c 2 (.hatchVec slot row mask vals)] } with smoke := sm } ∧
        row = (if bit c.word 45 then field c.word 88 7 else 2 * field c.word 88 7) ∧
        vals = (List.range (if bit c.word 45 then 128 else 256)).map (rm.lane (field c.word 48 6))) ∧
    (UnitDue s r 4 6 c → layoutBBad 6 c.word = false →
      (rm.hatch.slotAt slot (s.cyc r) = 3 →
        ∃ tr, exec (.vhrel r c) s = .next (s.setRoom r { rm.started s r 4 c 1 tr with
          vec := vec, pend := rm.pend ++ s.endTrace r 4 c 1 ++ [s.pendOf r c 1 (.hatchFree slot)] })) ∧
      (rm.hatch.slotAt slot (s.cyc r) = 0 →
        ∃ tr, exec (.vhrel r c) s = .next (s.setRoom r { rm.started s r 4 c 1 tr with vec := vec }))) ∧
    (UnitDue s r 4 0x40 c → vrngErr rm s.tabs c.word = none →
      let t := tensorOf (rm.descOf (field c.word 32 11))
      let word (j l : Nat) : BitVec 32 :=
        let x := randomWord s.job.seed ((1024 * groupNo rm c.word + 4 * l + j) % 2 ^ 48) (c.word.extractLsb' 64 16) t.tid r.val
          (bit c.word 63) (rm.scOf (field c.word 80 4))
        if bit c.word 87 then (uniformVal x).toF32 else x
      ∃ tr sm, exec (.vrng r c) s = .next { s.setRoom r { rm.started s r 4 c 10 tr with
          vec := vec
          pend := rm.pend ++ s.endTrace r 4 c 10 ++ (List.range 4).map fun j =>
            s.pendOf r c 10 (.vreg (field c.word 48 6 + j) mask ((List.range 256).map (word j))) } with smoke := sm })

/-- R251, R269, R270, R287, R294: a VLD or a VCHAIN without a fault of R295 whose first lines are ready starts: it leaves the queue, takes the
issue pipe for its OCC, and reads its operands; no lane, Hatch value or Pantry byte changes in the start gc.
R269, R271, R346: a VST without a fault of R295 starts: it leaves the queue and takes the issue pipe for LN gc; its group's one line, stored to
the Room's own Pantry with no other line and no bank use in the way, is written in the gc DUR after the start. -/
def Obligations.VectorTransfersStart : Prop :=
  (∀ (s : State) (r : RoomId) (c : QCmd), (s.room r).vec.free ≤ s.cyc r →
     let rm := s.room r
     (UnitDue s r 4 1 c → vldErr rm s.tabs c.word = none →
       let t := tensorOf (rm.descOf (field c.word 32 11))
       let lines := segLines (bitsOf s.tabs t.fmt) t (groupSegs false t (groupNo rm c.word))
       s.linesReady r (lines.take 1) →
       let ln := timedLines rm s.tabs (field c.word 32 11) c.word false (groupNo rm c.word)
       ∃ x fl sm, exec (.vld r c) s = .next { s.setRoom r x with flt := fl, smoke := sm } ∧
         x.queue 4 = (rm.queue 4).drop 1 ∧ x.vec.free = s.cyc r + ln ∧ x.vec.issueGc = satAdd rm.vec.issueGc ln ∧
         x.keeps rm ∧ x.mx = rm.mx ∧ x.out = rm.out ∧ s.pendOf r c (ln - 1) (.vldEnd rm.nextRun) ∈ x.pend ∧
         ∃ u ∈ x.runs, u.id = rm.nextRun ∧ u.cmd = c ∧ u.start = s.cyc r ∧ u.e = groupNo rm c.word) ∧
     (UnitDue s r 4 8 c → chainErr rm s.tabs r s.job.lrooms (s.cyc r) c.word = none →
       let k := chainOf c.word
       let tm := chainTime rm s.tabs s.job.runProfile.toNat c.word
       let first (i : Nat) : List Nat :=
         let t := tensorOf (rm.descOf i)
         (segLines (bitsOf s.tabs t.fmt) t (groupSegs k.pair t 0)).take 1
       (k.pair = false → s.linesReady r (first k.idesc)) → (k.in1 = true → s.linesReady r (first k.idesc1)) →
       ∃ x fl sm, exec (.vchain r c) s = .next { s.setRoom r x with flt := fl, smoke := sm } ∧
         x.queue 4 = (rm.queue 4).drop 1 ∧ x.vec.free = s.cyc r + tm.occ ∧ x.vec.issueGc = satAdd rm.vec.issueGc tm.occ ∧
         x.keeps rm ∧ x.mx = rm.mx ∧ x.out = rm.out ∧
         (∀ g, g < tm.groups → s.pendOf r c (g * tm.p + (tm.p - 1)) (.chainGroup rm.nextRun g) ∈ x.pend) ∧
         (k.hrel = true ∧ k.pair = true → s.pendOf r c tm.occ (.hatchFree k.hslot) ∈ x.pend) ∧
         ∃ u ∈ x.runs, u.id = rm.nextRun ∧ u.cmd = c ∧ u.start = s.cyc r)) ∧
  (∀ (s : State) (r : RoomId) (c : QCmd), UnitDue s r 4 2 c → (s.room r).vec.free ≤ s.cyc r →
     let rm := s.room r
     vstErr rm s.tabs r s.job.lrooms c.word = none →
     let idx := field c.word 32 11
     let t := tensorOf (rm.descOf idx)
     let ln := timedLines rm s.tabs idx c.word false (groupNo rm c.word)
     let how : StoreHow := {
       rnd := field c.word 84 2, sat := bit c.word 86, purpose := c.word.extractLsb' 64 16, roomkey := bit c.word 63,
       iter := rm.scOf (field c.word 80 4), seed := s.job.seed, lroom := r.val }
     let ps := (storeLinesOf s.tabs t false (groupNo rm c.word) how (rm.vmOf (field c.word 60 3))
       (regLanes rm.vec.regs (field c.word 48 6))).1
     ∃ x fl sm, exec (.vst r c) s = .next { s.setRoom r x with flt := fl, smoke := sm } ∧
       x.queue 4 = (rm.queue 4).drop 1 ∧ x.vec.free = s.cyc r + ln ∧ x.vec.issueGc = satAdd rm.vec.issueGc ln ∧
       x.keeps rm ∧ x.mx = rm.mx ∧ x.runs = rm.runs ∧
       (t.rte = false → rm.out.lines = [] → rm.pan.uses = [] → ∀ p, ps = [p] →
         s.pendOf r c ((if how.rnd = 2 then 16 else 10) + 1) (.pan p.line p.mask p.data p.poison) ∈ x.pend))

/-- R252, R274: a register, mask or Hatch result that is due changes exactly the lanes, bits and values that it names, and a slot
that is released becomes FREE and no other.
R415, R422, R425, R427, R429: a Gallery or Corridor write that is due changes the bits that its mask names, in its line alone, and makes an EMPTY
line FULL; it changes nothing in a gated bank. Ownership changes for the banks that a POWN names, and the lines that a PTAGCLR names take
its tag. -/
def Obligations.EffectsBecomeVisible : Prop :=
  (∀ (s : State) (r : RoomId) (p : Pend), (s.room r).wf = true →
     let rm := s.room r
     (∀ reg mask vals, p.eff = .vreg reg mask vals → vals.length = 256 →
       ∃ regs, showEff r p s = s.setRoom r { rm with vec := { rm.vec with regs := regs } } ∧
         ∀ g l, l < 256 → sget regs (256 * g + l) =
           if g = reg ∧ bit mask l = true then vals.getD l 0 else rm.lane g l) ∧
     (∀ vm mask bits, p.eff = .vmask vm mask bits → (h : vm < 8) →
       ∃ v, showEff r p s = s.setRoom r { rm with vec := { rm.vec with vm := rm.vec.vm.set vm v } } ∧
         ∀ l, l < 256 → bit v l = if bit mask l then bit bits l else bit rm.vec.vm[vm] l) ∧
     (∀ slot row col vals, p.eff = .hatch slot row col vals →
       ∃ mem, showEff r p s = s.setRoom r { rm with hatch := { rm.hatch with mem := mem } } ∧
         ∀ a, sget mem a = if 16384 * slot + 128 * row + col ≤ a ∧ a < 16384 * slot + 128 * row + col + vals.length
           then vals.getD (a - (16384 * slot + 128 * row + col)) 0 else sget rm.hatch.mem a) ∧
     (∀ slot, p.eff = .hatchFree slot → slot < 4 →
       ∃ h, showEff r p s = s.setRoom r { rm with hatch := h } ∧ h.mem = rm.hatch.mem ∧ h.slot slot = 0 ∧
         ∀ q, q < 4 → q ≠ slot → h.slot q = rm.hatch.slot q)) ∧
  (∀ (s : State) (r : RoomId) (p : Pend), (s.room r).wf = true →
     let rm := s.room r
     (∀ line mask data poison, p.eff = .pan line mask data poison ∨ p.eff = .corridor line mask data poison →
       rm.discards line = false →
       (rm.bankDown (bankOf line) (p.due - 1) = true → showEff r p s = s) ∧
       (rm.bankDown (bankOf line) (p.due - 1) = false →
         ∃ x : Room, showEff r p s = s.setRoom r { rm with pan := x.pan, dw := x.dw } ∧ x.pan.own = rm.pan.own ∧
           (∀ a, sget x.pan.mem a = if a / 256 = line then
               overByte (sget rm.pan.mem a) (BitVec.ofNat 8 (field mask (8 * (a % 256)) 8)) (data.getD (a % 256) 0)
             else sget rm.pan.mem a) ∧
           ∀ l, sget x.pan.tags l = if l = line ∧ sget rm.pan.tags l = 1#2 then 3#2 else sget rm.pan.tags l)) ∧
     (∀ banks own, p.eff = .pown banks own →
       ∃ o, showEff r p s = s.setRoom r { rm with pan := { rm.pan with own := o } } ∧
         ∀ b, b < 12 → bit o b = if bit banks b then own else bit rm.pan.own b) ∧
     (∀ line n tag, p.eff = .ptag line n tag → tag < 4 →
       ∃ x : Room, showEff r p s = s.setRoom r { rm with pan := x.pan, dw := x.dw } ∧ x.pan.mem = rm.pan.mem ∧
         x.pan.own = rm.pan.own ∧
         ∀ l, sget x.pan.tags l = if line ≤ l ∧ l < line + n then BitVec.ofNat 2 tag else sget rm.pan.tags l))

/-! ## The Outlet and the Mailslots -/

/-- R341, R344 to R348: an Outlet command without a fault whose source line is ready starts: it leaves the queue and takes the lane for its
OCC; an OCOPY reads line j of n in s + j, an OMSG reads its payload in s and comes to its channel in s + 6, and an OINC comes to its latch or the departure
buffer in s + 7. -/
def Obligations.OutletCommandsStart : Prop :=
  ∀ (s : State) (r : RoomId) (c : QCmd), (s.room r).out.free ≤ s.cyc r →
    let rm := s.room r
    let lead := rm.descOf (field c.word 32 11)
    let src := (tensorOf (rm.descOf (field c.word 43 11))).base
    (UnitDue s r 5 1 c → ocopyErr rm s.tabs r s.job.lrooms c.word = none → s.linesReady r [src / 256] →
      let n := field c.word 55 9 + 1
      ∃ x fl sm, exec (.ocopy r c) s = .next { s.setRoom r x with flt := fl, smoke := sm } ∧
        x.queue 5 = (rm.queue 5).drop 1 ∧ x.out = { rm.out with free := s.cyc r + n } ∧ x.keeps rm ∧ x.mx = rm.mx ∧
        ∀ j, j < n → s.pendOf r c j (.copyLine rm.nextRun j) ∈ x.pend) ∧
    (UnitDue s r 5 2 c → sendErr rm s.tabs r s.job.lrooms c.word true = none → rm.out.lines = [] → rm.runsBelow →
      let plen := field c.word 70 9
      let rt := routeOf lead
      (plen ≠ 0 → s.linesReady r [src / 256]) → ∀ ch, rm.comm.chanOf rt (field c.word 64 2) = some ch →
      ∃ x fl sm d, exec (.omsg r c) s = .next { s.setRoom r x with flt := fl, smoke := sm } ∧
        x.queue 5 = (rm.queue 5).drop 1 ∧ x.out.free = s.cyc r + 1 ∧ x.out.buf = rm.out.buf ∧ x.keeps rm ∧ x.mx = rm.mx ∧
        s.pendOf r c 6 (.sendMsg ch d) ∈ x.pend ∧ d.kind = .msg ∧ d.tgt = rt.tgt ∧ d.addr = field c.word 64 2 ∧
        d.data = if plen = 0 then [] else slice (rm.lineAt (src / 256) (s.cyc r)) (src % 256) plen) ∧
    (UnitDue s r 5 3 c → sendErr rm s.tabs r s.job.lrooms c.word false = none → rm.out.lines = [] →
      let rt := routeOf lead
      ∃ x sm, exec (.oinc r c) s = .next { s.setRoom r x with smoke := sm } ∧
        x.queue 5 = (rm.queue 5).drop 1 ∧ x.out.free = s.cyc r + 1 ∧ x.out.buf = rm.out.buf ∧ x.keeps rm ∧ x.mx = rm.mx ∧
        (rt.tgt = 0 → s.pendOf r c 7 (.oinc (field c.word 80 6) (c.word.extractLsb' 88 8) (c.word.extractLsb' 96 16)) ∈
          x.pend) ∧
        (rt.tgt ≠ 0 → ∃ d, s.pendOf r c 7 (.depart d) ∈ x.pend ∧ d.kind = .inc ∧ d.tgt = rt.tgt ∧
          d.addr = field c.word 80 6))

/-- R542, R549, R551: sending a message takes its units from the credit of every destination of its channel and moves their ring positions,
and no other channel changes; a credit return adds its units to the destination that it comes from, and to no other. -/
def Obligations.MessagesSpendCredit : Prop :=
  ∀ (s : State) (r : RoomId),
    (∀ (ch : Nat) (d : Dep) (w : BitVec 128) (k : SendChan), (s.room r).comm.sends[ch]? = some k →
      ∃ x e, sendMsg r ch d w s = s.setRoom r { s.room r with
          comm := { (s.room r).comm with sends := (s.room r).comm.sends.set ch x }, pend := (s.room r).pend ++ [e] } ∧
        x.seq = k.seq + 1 ∧ x.tgt = k.tgt ∧ x.mslot = k.mslot ∧
        x.dests = k.dests.map fun t =>
          let need := 1 + cdiv (field d.hdr 20 9) 16
          let pad := if need ≤ k.runits - t.wmir then 0 else k.runits - t.wmir
          { t with cred := t.cred - (need + pad)
                   wmir := if pad = 0 ∧ need ≤ k.runits - t.wmir then (t.wmir + need) % k.runits else need % k.runits }) ∧
    (∀ (rank : BitVec 12) (room : BitVec 7) (mslot : BitVec 2) (units : BitVec 13) (retried : Bool),
      ∃ t, exec (.creditReturnArrival r rank room mslot units retried) s = .next t ∧
        t.room r = { s.room r with comm := (t.room r).comm } ∧ (∀ q, q ≠ r → t.room q = s.room q) ∧
        (t.room r).comm = { (s.room r).comm with sends := (s.room r).comm.sends.map fun k =>
          { k with dests := k.dests.map fun d =>
              if k.mslot = mslot.toNat ∧ k.tgt ≠ 0 ∧ d.room = room ∧ d.rank = rank
              then { d with cred := d.cred + units.toNat } else d } })

/-- R555 to R557: a DRAIN of n records takes the issue pipe for 4n gc; the ready record at the head of its Mailslot's ring leaves it in the start gc,
and its units are credited 4n + 4 gc after the start; an empty ring ends the DRAIN's slots. -/
def Obligations.DrainTakesRecords : Prop :=
  ∀ (s : State) (r : RoomId) (c : QCmd) (g : Ring), UnitDue s r 4 0x38 c → (s.room r).vec.free ≤ s.cyc r →
    field c.word 34 6 = 0 → field c.word 46 82 = 0 → (s.room r).comm.ring (field c.word 32 2) = some g →
    (∀ m ∈ g.recs, m.pad = false) →
    (∀ p ∈ (s.room r).pend, ¬(p.word = c.word ∧ p.start = s.cyc r)) →
    let rm := s.room r
    let n := field c.word 40 6 + 1
    (g.recs = [] →
      ∃ x, exec (.drain r c) s = .next (s.setRoom r x) ∧ x.queue 4 = (rm.queue 4).drop 1 ∧
        x.vec = { rm.vec with free := s.cyc r + 4 * n, issueGc := satAdd rm.vec.issueGc (4 * n) } ∧
        x.comm = rm.comm ∧ x.pan = rm.pan ∧ x.hatch = rm.hatch ∧ x.mx = rm.mx ∧
        s.pendOf r c (4 * n + 4) (.credits (field c.word 32 2) 0) ∈ x.pend ∧
        ∀ p ∈ x.pend, p.word = c.word ∧ p.start = s.cyc r → ∀ k i, p.eff ≠ .drainSlot k i) ∧
    (∀ m t, g.recs = m :: t → m.readyAt ≤ (s.wing (wingOf r)).periods →
      ∃ x y fl sm, exec (.drain r c) s = .next { s.setRoom r x with flt := fl, smoke := sm } ∧
        x.queue 4 = (rm.queue 4).drop 1 ∧ x.vec.free = s.cyc r + 4 * n ∧ x.vec.regs = rm.vec.regs ∧
        x.pan.mem = rm.pan.mem ∧ x.pan.tags = rm.pan.tags ∧ x.hatch = rm.hatch ∧ x.mx = rm.mx ∧
        x.comm.ring (field c.word 32 2) = some y ∧ y.recs = t ∧ y.rptr = (g.rptr + m.units) % g.ru ∧
        y.used = g.used - m.units ∧ y.wptr = g.wptr ∧ y.expSeq = g.expSeq ∧ y.processed = satAdd g.processed 1 ∧
        s.pendOf r c (4 * n + 4) (.credits (field c.word 32 2) m.units) ∈ x.pend ∧
        ∀ i, 1 ≤ i → i < n → s.pendOf r c (4 * i) (.drainSlot c i) ∈ x.pend)

/-! ## The latch unit -/

/-- R527, R528, R525: a LINIT with no reserved field sets GEN, MODE and EXPECT and clears NEXT; ARRIVED takes a NEXT carried to the next
generation, or 0; a barrier that is complete with it releases. Only its latch word changes.
R519 to R521, R527: an LADD adds its signed count to ARRIVED of its own generation or to NEXT of the one before it; a stale one, one two or more
generations ahead, and one that would leave 0 to EXPECT, raise their faults and leave every word. -/
def Obligations.LatchWordsAreSetAndAddedTo : Prop :=
  (∀ (s : State) (r : RoomId) (c : QCmd), UnitDue s r 6 1 c → (s.room r).latFree ≤ s.cyc r →
     latErr (s.room r) 1 c.word = none →
     let rm := s.room r
     let n := field c.word 32 6
     let old := rm.latch.word n
     let carried := field c.word 40 8 = (latGen old + 1) % 256 ∧ latNext old ≤ field c.word 64 16
     let arr := if carried then latNext old else 0
     ∃ x fl, exec (.linit r c) s = .next { s.setRoom r x with flt := fl } ∧ x.queue 6 = (rm.queue 6).drop 1 ∧
       x.latFree = s.cyc r + 1 ∧ x.pan = rm.pan ∧ x.vec = rm.vec ∧ x.hatch = rm.hatch ∧ x.seq.sc = rm.seq.sc ∧
       x.seq.pb = rm.seq.pb ∧ x.latch.watches = rm.latch.watches ∧
       (∀ k, k < 48 → k ≠ n → x.latch.word k = rm.latch.word k) ∧
       (¬(bit c.word 48 = true ∧ arr = field c.word 64 16) ∨ bit rm.latch.relNow n = true →
         latGen (x.latch.word n) = field c.word 40 8 ∧ latMode (x.latch.word n) = bit c.word 48 ∧
         latExpect (x.latch.word n) = field c.word 64 16 ∧ latArrived (x.latch.word n) = arr ∧
         latNext (x.latch.word n) = 0) ∧
       (bit c.word 48 = true ∧ arr = field c.word 64 16 → bit rm.latch.relNow n = false →
         latGen (x.latch.word n) = (field c.word 40 8 + 1) % 256 ∧ latArrived (x.latch.word n) = 0 ∧
         bit x.latch.relNow n = true) ∧
       ((old.extractLsb' 48 16 = 0 ∨ carried) → fl = s.flt) ∧
       (old.extractLsb' 48 16 ≠ 0 ∧ ¬carried → ∃ rp, fl.queue = s.flt.queue ++ [rp] ∧
         (rp.code = 0x6004#16 ∨ rp.code = 0x6001#16))) ∧
  (∀ (s : State) (r : RoomId) (c : QCmd), UnitDue s r 6 2 c → (s.room r).latFree ≤ s.cyc r →
     latErr (s.room r) 2 c.word = none →
     let rm := s.room r
     let n := field c.word 32 6
     let w := rm.latch.word n
     let d : Int := ((field c.word 40 8 : Int) - latGen w + 128) % 256 - 128
     let inc : Int := (c.word.extractLsb' 64 16).toInt
     let v : Int := (if d = 0 then (latArrived w : Int) else (latNext w : Int)) + inc
     ((d = 0 ∨ d = 1) → 0 ≤ v → v ≤ latExpect w →
       ∃ x, exec (.ladd r c) s = .next (s.setRoom r x) ∧ x.queue 6 = (rm.queue 6).drop 1 ∧ x.latFree = s.cyc r + 1 ∧
         x.pan = rm.pan ∧ x.vec = rm.vec ∧ x.hatch = rm.hatch ∧ x.seq.sc = rm.seq.sc ∧ x.seq.pb = rm.seq.pb ∧
         x.latch.watches = rm.latch.watches ∧ (∀ k, k < 48 → k ≠ n → x.latch.word k = rm.latch.word k) ∧
         (latMode w = false → (x.latch.word n) = setField w (if d = 0 then 32 else 48) 16 v.toNat)) ∧
     (d < 0 ∨ 2 ≤ d ∨ v < 0 ∨ (latExpect w : Int) < v →
       ∃ x fl rp, exec (.ladd r c) s = .next { s.setRoom r x with flt := fl } ∧ x.latch.words = rm.latch.words ∧
         x.queue 6 = (rm.queue 6).drop 1 ∧ fl.queue = s.flt.queue ++ [rp] ∧ rp.tag = tagOf c.word ∧
         rp.code = (if d < 0 then 0x6003#16 else if 2 ≤ d then 0x6001#16 else if v < 0 then 0x6002#16 else 0x6001#16)))

/-- R527, R529, R532 to R535: an LWATCH (an LBAR, after its add) starts its watch unit; a watch whose condition holds, or whose limit is over, ends
in that period, and its outcome takes effect three periods later. -/
def Obligations.WatchesStartAndEnd : Prop :=
  ∀ (s : State) (r : RoomId),
    (∀ (c : QCmd) (op : Nat) (i : RoomId → QCmd → Instr), (op, i) ∈ [(3, Instr.lwatch), (4, Instr.lbar)] →
      UnitDue s r 6 op c → (s.room r).latFree ≤ s.cyc r → latErr (s.room r) op c.word = none →
      ∃ x fl, exec (i r c) s = .next { s.setRoom r x with flt := fl } ∧ x.queue 6 = ((s.room r).queue 6).drop 1 ∧
        x.latFree = s.cyc r + 1 ∧ x.vec = (s.room r).vec ∧ x.hatch = (s.room r).hatch ∧ x.pan.mem = (s.room r).pan.mem ∧
        x.seq.sc = (s.room r).seq.sc ∧ x.seq.pb = (s.room r).seq.pb ∧
        (op = 3 → x.latch.words = (s.room r).latch.words) ∧
        (bit c.word 49 = false → x.pan = (s.room r).pan) ∧
        (bit c.word 49 = true → (s.room r).wf = true → sget x.pan.tags (field c.word 80 12) = 1#2) ∧
        ∃ t, x.latch.watches.toList.getD (field c.word 56 3) none = some t ∧ t.latch = field c.word 32 6 ∧
          t.gen = c.word.extractLsb' 40 8 ∧ t.pd = field c.word 52 3 ∧ t.start = (s.wing (wingOf r)).periods ∧
          t.timeout = field c.word 96 24 ∧ t.val = c.word.extractLsb' 64 16 ∧
          t.atleast = (op == 3 && field c.word 50 2 == 1)) ∧
    (∀ (wid : Fin 8) (t : Watch), (s.room r).latch.watches[wid] = some t → (s.wing (wingOf r)).clockOn = true →
      let w := (s.room r).latch.word t.latch
      (t.holds w = true →
        ∃ e, exec (.watchEnd r wid) s = .next (s.setRoom r { s.room r with
            latch := { (s.room r).latch with watches := (s.room r).latch.watches.set wid none }
            wends := (s.room r).wends ++ [e] }) ∧
          e.due = (s.wing (wingOf r)).periods + 3 ∧ e.pd = t.pd ∧ e.val = true ∧ e.word = w ∧ e.wline = t.wline ∧
          e.poison = false) ∧
      (t.holds w = false → t.start + t.timeout ≤ (s.wing (wingOf r)).periods →
        ∃ x fl e, exec (.watchTimeout r wid) s = .next { s.setRoom r x with flt := fl } ∧
          x.latch.watches = (s.room r).latch.watches.set wid none ∧ x.latch.words = (s.room r).latch.words ∧
          x.wends = (s.room r).wends ++ [e] ∧ e.due = (s.wing (wingOf r)).periods + 3 ∧ e.pd = t.pd ∧ e.val = false ∧
          x.pan = (s.room r).pan ∧ x.vec = (s.room r).vec ∧ (t.timeout = 0 → fl = s.flt) ∧
          (t.timeout ≠ 0 → ∃ rp, fl.queue = s.flt.queue ++ [rp] ∧ rp.code = 0x6005#16 ∧ rp.tag = t.tag)))

/-- R224, R227, R233, R245: in its first entry gc a stream command without a fault of R238 swaps the quadrants it names, claims its
Hatch slots, as RELEASING until E + 17 gc later where HREL is 1 and as MATRIX otherwise, counts its E gc, and its rows enter in their order.
R227, R229 to R231: in the entry gc of row i of an unscaled moving operand that was read without error, each output of each product
of the command, ACC being 0, is due in slot row ROW0 + i 14 gc later, with the result of R159 to R166 over the active tile; nothing is written before. -/
def Obligations.MatrixRowsEnterAndResult : Prop :=
  (∀ (s : State) (r : RoomId) (id : Nat) (u : Run), (s.room r).run id = some u →
     let w := u.cmd.word
     let t := tensorOf (u.descs.headD 0)
     let mx := (s.room r).mx.settle (s.cyc r)
     mmEntryErr { s.room r with mx := mx } s.tabs w (u.descs.headD 0) u.cls = none →
     ∃ h act shd, mmEntry r id s = s.setRoom r { s.room r with
         mx := { mx with act := act, shd := shd, entryGc := satAdd mx.entryGc u.e }
         hatch := h
         pend := (s.room r).pend ++ (List.range (min (field w 56 7 + 1) t.yext)).map fun i =>
           { due := s.cyc r + mmEntryAt (opcodeOf w) u.cls i, start := u.start, word := w, eff := .mmRow id i } } ∧
       (∀ q : Fin 4, act[q] = if bit w (52 + q.val) then mx.shd[q] else mx.act[q]) ∧
       h.mem = (s.room r).hatch.mem ∧
       (∀ n, n < 4 → h.slot n = if n ∈ mmSlots w then (if bit w 48 then 2 else 1) else (s.room r).hatch.slot n) ∧
       (bit w 48 = true → ∀ n ∈ mmSlots w, (n, s.cyc r + u.e + 17) ∈ h.rel)) ∧
  (∀ (s : State) (r : RoomId) (id i : Nat) (u : Run) (f : Fmt), (s.room r).run id = some u →
     let w := u.cmd.word
     let t := tensorOf (u.descs.headD 0)
     fmtOf s.tabs.ptab t.fmt = some f → (∀ tb, f.elem ≠ .tab tb) → t.smode = 0 → (∀ g ∈ u.got, g.bad = false) →
     bit w 47 = false →
     let parts := indexed (mmParts (opcodeOf w) u.cls t)
     let codes := (parts.map fun p =>
       u.rowCodes f.elem.bits t p.2.1 p.2.2 i (u.start + mmReadAt (opcodeOf w) u.cls i p.1)).flatten
     let mov := codes.map fun k => (f.elem.decode k, Val.fin false 1 0)
     let l (p : MmProd) := blockLen ((s.room r).mx.act.toList.getD p.quad MxBuf.reset).smode.toNat 0
     let t' := mmRow r id i s
     (t'.room r).keeps (s.room r) ∧ (t'.room r).mx = (s.room r).mx ∧ (t'.room r).queues = (s.room r).queues ∧
     (∀ q, q ≠ r → t'.room q = s.room q) ∧
     ∀ p ∈ mmProds (s.room r).mx.act.toList w,
       ({ due := s.cyc r + 14, start := u.start, word := w,
          eff := .hatch p.slot (field w 80 7 + i) p.col0
           (p.outs.map fun o => (mmResult (l p) s.free (i * 8) none (mov.drop p.seg) o).1.toF32) } : Pend) ∈ (t'.room r).pend)

/-- R159 to R165: the product sum of up to 128 pairs of 8-bit integers with unit scales is exact: its FP32 word is that of the
integer sum, but for the sign of a zero (R164), and it sets no flag. -/
def Obligations.IntegerProductsAreExact : Prop :=
  ∀ (a b : List Int) (free place : Nat), a.length = b.length → a.length ≤ 128 → a ≠ [] →
    (∀ x ∈ a ++ b, -128 ≤ x ∧ x ≤ 127) →
    let v (x : Int) : Val × Val := (.fin (decide (x < 0)) x.natAbs 0, .fin false 1 0)
    let sum := (List.zipWith (· * ·) a b).sum
    let res := mmResult 32 free place none (a.map v) (b.map fun x => some (v x))
    res.2 = 0#8 ∧ (sum ≠ 0 → res.1.toF32 = intToF32 sum) ∧ (sum = 0 → res.1.toF32 &&& 0x7FFFFFFF#32 = 0#32)

/-! ## The Arrivals port -/

/-- R418, R420, R424, R425, R428: the port writes the arrival it takes: the bits of its mask in its line, an EMPTY line becoming FULL with the
arrival's bits; an arrival for an unowned NONE line, or for a line that is still FULL, is discarded and reported. The arrival leaves the buffer,
and the port is taken for one period. -/
def Obligations.ArrivalsAreWritten : Prop :=
  ∀ (s : State) (r : RoomId) (busy : BitVec 12) (a : Arr), s.takes r busy = some a → a.kind = .data → a.fab = false →
    (s.room r).wf = true → (s.room r).bankDown (bankOf a.line) (s.cyc r) = false →
    let rm := s.room r
    let tag := sget rm.pan.tags a.line
    ∃ t, exec (.arrivalWrite r busy) s = .next t ∧ (∀ q, q ≠ r → t.room q = s.room q) ∧
      (let left := delFirst (fun x => decide (x = a)) rm.pan.buf
       (t.room r).pan.buf = left ++ rm.pan.held.take (32 - left.length)) ∧
      (t.room r).pan.portAt = (s.wing (wingOf r)).periods + 1 ∧ (t.room r).hatch = rm.hatch ∧ (t.room r).vec = rm.vec ∧
      (t.room r).mx = rm.mx ∧ (t.room r).seq = rm.seq ∧ (t.room r).latch = rm.latch ∧
      (tag = 1#2 ∨ (tag = 0#2 ∧ inMask rm.pan.own (bankOf a.line) = true) →
        t.flt = s.flt ∧
        (∀ k, sget (t.room r).pan.mem k = if k / 256 = a.line then
            overByte (sget rm.pan.mem k) (BitVec.ofNat 8 (field a.mask (8 * (k % 256)) 8)) (a.data.getD (k % 256) 0)
          else sget rm.pan.mem k) ∧
        (∀ l, sget (t.room r).pan.tags l = if l = a.line ∧ tag = 1#2 then 3#2 else sget rm.pan.tags l) ∧
        (tag = 1#2 → sget (t.room r).pan.bits a.line = chargeOf a.retried a.refresh)) ∧
      (tag = 0#2 ∧ inMask rm.pan.own (bankOf a.line) = false ∨ tag = 2#2 ∨ tag = 3#2 →
        (t.room r).pan.mem = rm.pan.mem ∧ (t.room r).pan.tags = rm.pan.tags ∧
        ∃ rp, t.flt.queue = s.flt.queue ++ [rp] ∧ rp.code = (if tag = 0#2 then BitVec.ofNat 16 fcPanOwner
          else BitVec.ofNat 16 fcPanOverrun))

/-- R520, R522, R523: a latch packet that the port takes, with no local update of the gc before it, has the effect of an arrival on its latch
word and takes the port for one period; R542 to R545: a record in order from its declared sender is placed in its ring, and the bytes of the ring take it. -/
def Obligations.PacketsReachLatchesAndMailslots : Prop :=
  ∀ (s : State) (r : RoomId) (a : Arr), s.takes r 0 = some a → a.fab = false → (s.room r).wf = true →
    let rm := s.room r
    let per := (s.wing (wingOf r)).periods
    (∀ l g i w, a.kind = .inc l g i → l < 48 → latchAdd (rm.latch.word l) g.toNat i.toInt = .inl w → latMode w = false →
      (∀ p ∈ rm.pend, ∀ n h k o, p.eff ≠ .oinc n h k ∧ p.eff ≠ .linc n h k o) →
      ∃ x, exec (.latchPacketArrival r) s = .next (s.setRoom r x) ∧ x.latch.word l = w ∧
        (∀ k, k < 48 → k ≠ l → x.latch.word k = rm.latch.word k) ∧ x.pan.portAt = per + 1 ∧ x.pan.mem = rm.pan.mem ∧
        x.pan.tags = rm.pan.tags ∧ x.vec = rm.vec ∧ x.hatch = rm.hatch ∧ x.seq = rm.seq) ∧
    (∀ m h g at0 g', a.kind = .msg m h → rm.comm.ring m = some g → g.fromSender h = true →
      msgSeq h = g.expSeq.toNat → g.place h a.data (a.poison != 0) 0 = some (at0, g') →
      let bytes := recordBytes h a.data
      let off := 256 * g.base + 16 * at0
      (∀ l ∈ linesOf off bytes.length, rm.bankDown (bankOf l) (s.cyc r) = false ∧ inMask rm.pan.own (bankOf l) = true) →
      ∃ x y, exec (.mailslotRecordArrival r) s = .next (s.setRoom r x) ∧ x.comm.ring m = some y ∧ y.wptr = g'.wptr ∧
        y.rptr = g.rptr ∧ y.used = g'.used ∧ y.expSeq = g.expSeq + 1 ∧ y.recs.length = g'.recs.length ∧
        (∀ i, i < bytes.length → sget x.pan.mem (off + i) = bytes.getD i 0) ∧ x.pan.tags = rm.pan.tags ∧
        x.vec = rm.vec ∧ x.hatch = rm.hatch ∧ x.seq = rm.seq ∧ x.latch = rm.latch)

/-- R420, R433, R434: a write-back read of a FULL line without error makes it EMPTY and hands its bytes to the request; R435: the scrubber
counts the free gc of a bank up to its gap, then checks the bank's next line. No byte of the Pantry changes. -/
def Obligations.PortReadsAndScrubs : Prop :=
  ∀ (s : State) (r : RoomId),
    let rm := s.room r
    (∀ (busy : BitVec 12) (l id : Nat) (q : Req), s.portFree r = true →
      (rm.pan.readTurn = true ∨ s.arrCand r busy = none) → s.readCand r busy = some (l, .put id) →
      s.mem.reqs = [q] → q.id = id → rm.lineBad l (s.cyc r) = false → rm.wf = true →
      ∃ t, exec (.writebackRead r busy) s = .next t ∧ (∀ k, k ≠ r → t.room k = s.room k) ∧
        (t.room r).pan.mem = rm.pan.mem ∧ (∀ k, sget (t.room r).pan.tags k = if k = l then 1#2 else sget rm.pan.tags k) ∧
        (t.room r).pan.portAt = (s.wing (wingOf r)).periods + 1 ∧ (t.room r).pan.readTurn = false ∧
        (t.room r).dw.linesPut = satAdd rm.dw.linesPut 1 ∧ t.flt = s.flt ∧
        t.mem = { s.mem with reqs := [{ q with
          left := q.left.drop 1, data := q.data ++ [(rm.lineAt l (s.cyc r), 0)]
          phase := if (q.left.drop 1).isEmpty then .sent else .reading }] }) ∧
    (∀ (b : Fin 12) (w : Bool), rm.on = true → inMask (s.busyBanks r 0) b.val = false →
      rm.bankDown b.val (s.cyc r) = false →
      (rm.pan.scFree[b] < rm.pan.gap.toNat →
        exec (.pantryScrubStep r b w) s = .next (s.setRoom r { rm with
          pan := { rm.pan with scFree := rm.pan.scFree.set b (rm.pan.scFree[b] + 1) } })) ∧
      (rm.pan.gap.toNat ≤ rm.pan.scFree[b] →
        (∀ i, i < 32 → sget rm.pan.due (32 * (256 * b.val + rm.pan.scLine[b]) + i) = 0#1 ∧
          sget rm.pan.sbe (32 * (256 * b.val + rm.pan.scLine[b]) + i) = 0#1) →
        ∃ p, exec (.pantryScrubStep r b w) s = .next (s.setRoom r { rm with pan := p }) ∧
          p.mem = rm.pan.mem ∧ p.tags = rm.pan.tags ∧ p.due = rm.pan.due ∧ p.sbe = rm.pan.sbe ∧ p.scFree[b] = 0 ∧
          p.scLine[b] = (rm.pan.scLine[b] + 1) % 256 ∧ p.status = rm.pan.status))

/-! ## Dumbwaiter requests -/

/-- R441 to R443: the stream whose turn it is issues its next request: the lines of a fetch become PEND, and the request is in flight; a request outside
the stream's pages is withheld instead, counted, and for a write-back its lines become EMPTY.
R444, R445: a fetch that has been served hands its lines to the arrival buffer, in order, when all of them fit in it; an
acknowledged write-back is no longer in flight. -/
def Obligations.RequestsIssueAndReturn : Prop :=
  (∀ (s : State) (r : RoomId) (t : DwStream) (q : DwReq) (rest : List DwReq), s.reqPick r = some t → t.todo = q :: rest →
     (s.room r).wf = true → (∀ u ∈ (s.room r).dw.streams, u.id = t.id → u = t) →
     let rm := s.room r
     (t.withheld q = false →
       ∃ x e, exec (.dwRequestIssue r) s = .next { s.setRoom r x with
           mem := { s.mem with reqs := s.mem.reqs ++ [e], nextReq := s.mem.nextReq + 1 } } ∧
         e.id = s.mem.nextReq ∧ e.room = r ∧ e.fetch = t.fetch ∧ e.addr = q.haddr ∧ e.n = q.n ∧ e.line = q.line ∧
         e.left = q.lines ∧ e.tag = t.tag ∧ e.phase = (if t.fetch then .sent else .reading) ∧
         x.pan.mem = rm.pan.mem ∧ x.hatch = rm.hatch ∧ x.vec = rm.vec ∧ x.seq = rm.seq ∧
         (∀ l, sget x.pan.tags l = if t.fetch = true ∧ l ∈ q.lines then 2#2 else sget rm.pan.tags l) ∧
         x.dw.reqIssued = satAdd rm.dw.reqIssued 1 ∧ x.dw.last = t.ctx ∧ x.dw.fenced = rm.dw.fenced ∧
         ∃ v ∈ x.dw.streams, v.id = t.id ∧ v.todo = rest ∧ v.infl = t.infl + 1 ∧ (v.bound = true ↔ rest ≠ [])) ∧
     (t.withheld q = true →
       ∃ y, exec (.dwRequestWithheld r) s = .next y ∧ (∀ k, k ≠ r → y.room k = s.room k) ∧
         (y.room r).pan.mem = rm.pan.mem ∧ (y.room r).dw.fenced = satAdd rm.dw.fenced 1 ∧
         (y.room r).dw.reqIssued = rm.dw.reqIssued ∧ y.mem.hbm = s.mem.hbm ∧
         (∀ l, sget (y.room r).pan.tags l = if l ∈ q.lines then (if t.fetch then 2#2 else 1#2)
           else sget rm.pan.tags l) ∧
         (t.fetch = false → y.mem = s.mem))) ∧
  (∀ (s : State) (r : RoomId) (id : Nat) (q : Req), s.reqOf id = some q → q.room = r → q.phase = .served →
     let rm := s.room r
     (q.fetch = true → q.data.length = q.n / 256 → rm.pan.held = [] → rm.pan.buf.length + q.n / 256 ≤ 32 →
       ∃ t as, exec (.dwFetchReturn r id) s = .next t ∧
         t.room r = { rm with pan := { rm.pan with buf := rm.pan.buf ++ as } } ∧ (∀ k, k ≠ r → t.room k = s.room k) ∧
         as.map (fun a => (a.kind, a.line, a.data, a.poison)) =
           (indexed q.data).map (fun x => (ArrKind.dw id, q.line + x.1, x.2.1, x.2.2)) ∧
         t.mem.hbm = s.mem.hbm ∧ t.mem.cellars = s.mem.cellars ∧ t.flt = s.flt) ∧
     (q.fetch = false → ∃ t, exec (.dwWritebackAck r id) s = .next t ∧
       t.mem.reqs = s.mem.reqs.filter (fun x => x.id != id) ∧ t.mem.hbm = s.mem.hbm ∧
       (∀ k, k ≠ r → t.room k = s.room k) ∧ (t.room r).pan.mem = rm.pan.mem ∧ (t.room r).pan.tags = rm.pan.tags))

/-! ## The Cellars -/

/-- R443, R474: a request for HBM with its right enters the queue of its stack, which serves a write at once; without its right a
fetch returns zeros and a write-back writes nothing, and the access is counted. The head of a queue outside every window is served in order.
R473, R475, R482: outside every window the head of a stack's queue is served: a write changes the bytes it writes and no other, and a fetch takes the bytes that
stand in HBM, with no report where none of their codewords holds an error. R666: so does a companion read, which is answered with them. -/
def Obligations.StacksServeRequests : Prop :=
  (∀ (s : State) (id : Nat) (q : Req), s.reqOf id = some q → q.phase = .sent →
     (s.hasRight q.addr (!q.fetch) = false →
       ∃ t, exec (.hbmRequestArrive id) s = .next t ∧ t.mem.cellars = s.mem.cellars ∧ t.mem.hbm = s.mem.hbm ∧
         (∀ k, k ≠ q.room → t.room k = s.room k) ∧
         (t.room q.room).dw.suppressed = satAdd (s.room q.room).dw.suppressed 1 ∧
         ∃ e, t.reqOf id = some e ∧ e.phase = .served ∧
           e.data = if q.fetch then List.replicate (q.n / 256) (List.replicate 256 0#8, 0#32) else []) ∧
     (s.hasRight q.addr (!q.fetch) = true → isComp q.addr = false → s.smoke.debug = false →
       let n := stackOf q.addr
       ∃ t i, exec (.hbmRequestArrive id) s = .next t ∧ t.rooms = s.rooms ∧ t.mem.hbm = s.mem.hbm ∧
         (n < 8 → (t.stack n).queue = (s.stack n).queue ++ [i]) ∧ i.addr = q.addr ∧ i.n = q.n ∧
         i.writes = (if q.fetch then [] else [(q.addr, (q.data.map (·.1)).flatten)]) ∧
         (∀ k, k < 8 → k ≠ n → t.stack k = s.stack k) ∧
         ∃ e, t.reqOf id = some e ∧ e.phase = if q.fetch then .queued else .served)) ∧
  (∀ (s : State) (st : StackId) (i : QItem) (rest : List QItem), (s.stack st.val).queue = i :: rest →
     s.stackUp st = true → (s.stack st.val).winEnd ≤ s.rc → swf s.mem.hbm = true →
     (∀ a bs, i.req = none → i.ans = none → i.writes = [(a, bs)] →
       ∃ t, exec (.hbmRequestBegin st) s = .next t ∧ t.rooms = s.rooms ∧ t.flt = s.flt ∧ t.mem.reqs = s.mem.reqs ∧
         (t.stack st.val).queue = rest ∧
         ∀ k, sget t.mem.hbm k = if a ≤ k ∧ k < a + bs.length then bs.getD (k - a) 0 else sget s.mem.hbm k) ∧
     (∀ id q, i.req = some id → s.reqOf id = some q → i.writes = [] → i.bad = [] → i.n = 256 → i.addr % 256 = 0 →
       (∀ c, c < 4 → sget s.mem.hbmBad (i.addr / 64 + c) = 0#1 ∧ sget s.mem.hbmSbe (i.addr / 64 + c) = 0#1) →
       ∃ t e, exec (.hbmRequestBegin st) s = .next t ∧ t.rooms = s.rooms ∧ t.flt = s.flt ∧ t.mem.hbm = s.mem.hbm ∧
         (t.stack st.val).queue = rest ∧ t.reqOf id = some e ∧ e.phase = .served ∧
         e.data = [(sgetRange s.mem.hbm i.addr 256, 0#32)]) ∧
     (∀ rid multi, i.req = none → i.ans = some (rid, multi) → i.writes = [] → i.bad = [] →
       i.n = (if multi then 256 else 64) → i.addr % i.n = 0 →
       (∀ c, c < 4 → sget s.mem.hbmBad (i.addr / 64 + c) = 0#1 ∧ sget s.mem.hbmSbe (i.addr / 64 + c) = 0#1) →
       s.pal.live = true → s.pal.fenced = false → s.pal.waiting = [] → s.pal.unacked.length + 4 ≤ 128 →
       ∃ t, exec (.hbmRequestBegin st) s = .next t ∧ t.rooms = s.rooms ∧ t.flt = s.flt ∧ t.mem.hbm = s.mem.hbm ∧
         (t.stack st.val).queue = rest ∧ t.pal.unacked.length = s.pal.unacked.length + (if multi then 4 else 1) ∧
         ∀ f ∈ t.pal.unacked.drop s.pal.unacked.length, field f.2.hdr 22 6 = 0x20 ∧ field f.2.hdr 32 8 = rid.toNat ∧
           ∃ k, k < 4 ∧ f.2.body = slice (sgetRange s.mem.hbm i.addr i.n) (64 * k) 64))

/-- R465, R476 to R480: a fixed window opens for 30 rc in every powered stack at once; an extra one in its stack, all of whose requests take the refresh-held bit; the refresh level follows the
temperature that was read, 85 and 95 degrees, and falls 2 degrees below.
R484, R485: with its queue empty, no window open and its codeword without error, a stack's scrubber goes on to the next codeword; SCRUB_BEHIND sets its flag when a period has passed
without a complete pass. R492, R501: an engine takes the oldest operation of its queue, and completes one with nothing outstanding. -/
def Obligations.RefreshScrubAndEngines : Prop :=
  (∀ (s : State),
     (s.fixedDue = true → ∃ t, exec .fixedRefreshWindow s = .next t ∧ t.rooms = s.rooms ∧ t.mem.hbm = s.mem.hbm ∧
       ∀ n, n < 8 → t.stack n = if bit s.thr.pwr.cellar (n / 2) then
         { s.stack n with winEnd := s.rc + 30, lastWin := s.rc, fixedAt := s.rc } else s.stack n) ∧
     (∀ st : StackId, s.stackUp st = true →
       (s.extraDue st = true → ∃ t, exec (.extraRefreshWindow st) s = .next t ∧ t.rooms = s.rooms ∧
         t.mem.hbm = s.mem.hbm ∧
         t.stack st.val = { s.stack st.val with
           winEnd := s.rc + 30, extraEnd := s.rc + 30, lastWin := s.rc,
           queue := (s.stack st.val).queue.map fun q => { q with refresh := true } }) ∧
       (∀ temp, ∃ t, exec (.stackTempRead st temp) s = .next t ∧ t.rooms = s.rooms ∧
         t.stack st.val = { s.stack st.val with temp := temp } ∧
         ∀ n, n < 8 → n ≠ st.val → t.stack n = s.stack n) ∧
       ((s.stack st.val).level ≤ 2 → ∃ t, exec (.refreshLevelEval st) s = .next t ∧ t.rooms = s.rooms ∧
         (∀ n, n < 8 → n ≠ st.val → t.stack n = s.stack n) ∧
         (let x := (s.stack st.val).temp.toInt
          (95 * 16 ≤ x → (t.stack st.val).level = 2) ∧
          (85 * 16 ≤ x → x < 95 * 16 → (s.stack st.val).level ≤ 1 → (t.stack st.val).level = 1) ∧
          (85 * 16 ≤ x → x ≤ 93 * 16 → (t.stack st.val).level = 1) ∧
          (93 * 16 < x → (s.stack st.val).level = 2 → (t.stack st.val).level = 2) ∧
          (83 * 16 < x → x < 95 * 16 → (s.stack st.val).level = 1 → (t.stack st.val).level = 1) ∧
          (x ≤ 83 * 16 → (t.stack st.val).level = 0) ∧
          (x < 85 * 16 → (s.stack st.val).level = 0 → (t.stack st.val).level = 0))))) ∧
  (∀ (s : State),
     (∀ st : StackId, s.stackUp st = true → (s.stack st.val).trained = true → (s.stack st.val).queue = [] →
       (s.stack st.val).winEnd ≤ s.rc → (s.stack st.val).scrubFrom ≤ s.rc →
       sget s.mem.hbmBad (scrubAddr st.val (s.stack st.val).scrub / 64) = 0#1 →
       sget s.mem.hbmSbe (scrubAddr st.val (s.stack st.val).scrub / 64) = 0#1 → (s.stack st.val).scrub + 1 < 2 ^ 30 →
       ∃ t, exec (.hbmScrubStep st) s = .next t ∧ t.rooms = s.rooms ∧ t.mem.hbm = s.mem.hbm ∧ t.flt = s.flt ∧
         t.stack st.val = { s.stack st.val with scrub := (s.stack st.val).scrub + 1 } ∧
         ∀ n, n < 8 → n ≠ st.val → t.stack n = s.stack n) ∧
     (∀ c : CellarId, bit s.thr.pwr.cellar c.val = true →
       (∃ k ∈ s.mem.cellars[c].stk.toList, k.trained = true ∧
         k.scrubFrom + s.mem.cellars[c].hours.toNat * 360000000000 ≤ s.rc) →
       ∃ t, exec (.scrubBehind c) s = .next t ∧ t.rooms = s.rooms ∧ t.mem.cellars[c].behind = true ∧
         t.mem.hbm = s.mem.hbm ∧ ∀ d : CellarId, d ≠ c → t.mem.cellars[d] = s.mem.cellars[d]) ∧
     (∀ (c : CellarId) (e : EngineKind) (o : EngOp) (rest : List EngOp) (comp : SMap 8),
       bit s.thr.pwr.cellar c.val = true → (s.mem.cellars[c].engine e).cur = none →
       (s.mem.cellars[c].engine e).queue = o :: rest →
       ∃ t u, exec (.engineOpStart c e comp) s = .next t ∧ (t.mem.cellars[c].engine e).queue = rest ∧
         (t.mem.cellars[c].engine e).cur = some u ∧ u.op = o ∧ t.mem.hbm = s.mem.hbm) ∧
     (∀ (c : CellarId) (e : EngineKind) (u : EngRun) (g : RoomEng), (s.mem.cellars[c].engine e).cur = some u → u.rows = [] →
       u.out = 0 → u.cmps = 0 → (s.room u.op.room).dw.eng = some g → g.dlen = false →
       ∃ t, exec (.engineOpComplete c e) s = .next t ∧ (t.mem.cellars[c].engine e).cur = none ∧
         t.mem.cellars[c].opsDone = satAdd s.mem.cellars[c].opsDone 1 ∧
         t.room u.op.room = { s.room u.op.room with dw := { (s.room u.op.room).dw with eng := none } } ∧
         ∀ k, k ≠ u.op.room → t.room k = s.room k))

/-! ## Job Cards and the Palbo link -/

/-- R663, R674, R676, R678, R680: at a hit of an armed monitor the card of a slot is taken when its sequence number follows, its CRC matches and its fields,
right and state are good; a repeated number changes nothing but the acknowledgement, and a wrong CRC leads to one re-read 100 rc later, whose failure
rejects the card with STATUS 2. -/
def Obligations.JobCardsAreReceived : Prop :=
  ∀ (s : State) (n : Fin 64) (bs : Bytes) (ready : Bool), s.palUp = true → s.gbRoom = true →
    let c := cardOf n.val bs
    let good := cardReserved bs = false ∧ c.fieldsOk = true ∧ (c.opc = 0 ∨ s.granted 0 n.val (c.opc.toNat - 1) = true) ∧
      s.cardLegal c = true ∧ c.opc ≠ 2
    (∀ h : PalboHdr, s.pal.card = none → s.pal.reread = none → bit s.pal.armed n.val = true →
      (c.seq = s.pal.last[n] + 1 → cardCrcOk bs = true → good →
        ∃ t, exec (.monHit n h bs ready) s = .next t ∧ t.pal.card = some c ∧ t.pal.last = s.pal.last.set n c.seq ∧
          t.pal.cards = satAdd s.pal.cards 1 ∧ t.rooms = s.rooms ∧ t.mem = s.mem ∧ t.job = s.job ∧ t.flt = s.flt) ∧
      (c.seq = s.pal.last[n] →
        ∃ t, exec (.monHit n h bs ready) s = .next t ∧ t = { s with pal := t.pal } ∧ t.pal.card = none ∧
          t.pal.last = s.pal.last ∧ t.pal.cards = s.pal.cards ∧ t.pal.rejected = s.pal.rejected) ∧
      (c.seq = s.pal.last[n] + 1 → cardCrcOk bs = false →
        ∃ t, exec (.monHit n h bs ready) s = .next t ∧ t = { s with pal := t.pal } ∧ t.pal.card = none ∧
          t.pal.reread = some (n.val, s.rc + 100) ∧ t.pal.rereads = satAdd s.pal.rereads 1 ∧ t.pal.last = s.pal.last)) ∧
    (∀ at0, s.pal.reread = some (n.val, at0) → at0 ≤ s.rc →
      (cardCrcOk bs = true → good →
        ∃ t, exec (.cardCrcReread bs ready) s = .next t ∧ t.pal.card = some c ∧ t.pal.reread = none ∧
          t.pal.last = s.pal.last.set n c.seq ∧ t.rooms = s.rooms ∧ t.mem = s.mem ∧ t.job = s.job) ∧
      (cardCrcOk bs = false →
        ∃ t, exec (.cardCrcReread bs ready) s = .next t ∧ t.pal.reread = none ∧ t.pal.card = s.pal.card ∧
          t.pal.last = s.pal.last ∧ t.pal.rejected = satAdd s.pal.rejected 1 ∧ t.pal.cardStatus = 2#4 ∧
          t.rooms = s.rooms ∧ t.mem = s.mem ∧ t.job = s.job))

/-- R677, R679 to R681, R717: each accepted card is taken, has its action, and its reply names it with STATUS 0. -/
def Obligations.JobCardsAct : Prop :=
  ∀ (s : State) (c : JobCard), s.pal.card = some c → s.gbRoom = true → c.slot < 64 →
    let taken (t : State) : Prop := t.pal.card = none ∧ t.pal.cardSeq = c.seq ∧ t.pal.cardSlot.toNat = c.slot ∧
      t.pal.cardStatus = 0#4
    (c.opc = 0 → ∃ t, exec .cardNop s = .next t ∧ taken t ∧ t = { s with pal := t.pal }) ∧
    (c.opc = 1 → ∃ t w, exec .cardLoad s = .next t ∧ taken t ∧ w.job.js = .loading ∧ w.mem = s.mem ∧ w.rooms = s.rooms ∧
      (let x := loadImage c.arg0.toNat c.arg1.toNat c.arg2.toNat w
       (t.job.js = .loaded ∨ t.job.js = .configured) ∧ (x.1 ≠ 0 → t.job.js = .configured) ∧ t.job = x.2.job ∧
       t.rooms = x.2.rooms ∧ t.mem = x.2.mem)) ∧
    (c.opc = 2 → s.job.js = .loaded → s.thr.clk.jclk.toNat + s.startLead < 2 ^ 64 →
      ∃ t, exec .cardStart s = .next t ∧ taken t ∧ t.rooms = s.rooms ∧ t.mem = s.mem ∧ c ∈ t.pal.starts ∧
        t.job = { s.job with t0 := c.arg2, startRc := s.thr.clk.jclk + BitVec.ofNat 64 s.startLead, seed := c.arg0,
                             startRt := bit c.arg1 0, startSet := true }) ∧
    (c.opc = 3 → s.job.js = .running →
      (c.arg0 = 0 → (∀ w, (s.wing w).fstop = none) →
        ∃ t, exec .cardStop s = .next t ∧ taken t ∧ t.job.js = .draining ∧ t.job.stopped = true) ∧
      (∀ kind : Nat, ∀ i, (kind, i) ∈ [(1, Instr.cardQuiesce), (2, Instr.cardFreeze)] → c.arg0 = BitVec.ofNat 64 kind →
        s.job.pend = 0 → s.job.frozen = false →
        ∃ t, exec i s = .next t ∧ taken t ∧ t.rooms = s.rooms ∧ t.mem = s.mem ∧
          t.job = { s.job with pend := BitVec.ofNat 2 kind, pendStick := s.leadStick })) ∧
    (c.opc = 4 → s.job.js = .loaded ∨ s.job.js = .done ∨ s.job.js = .faulted →
      ∃ t, exec .cardUnload s = .next t ∧ taken t ∧ t.job.js = .configured ∧ t.thr.load.bin = none ∧
        t.mem.regions = [] ∧ t.mem.reqs = [] ∧ t.job.ticking = false) ∧
    (c.opc = 5 → ∃ t, exec .cardMode s = .next t ∧ taken t ∧ t.rooms = s.rooms ∧ t.mem = s.mem ∧
      t.job = { s.job with smode := c.arg0.extractLsb' 0 3 }) ∧
    (c.opc = 6 → ∀ comp : SMap 8,
      (∃ t, exec (.cardTable comp) s = .next t ∧ taken t ∧ t.mem.hbm = s.mem.hbm ∧ t.job = s.job) ∧
      (inComp c.arg0.toNat = true → s.pal.fenced = false → bit c.arg1 0 = false →
        ∀ pt, parsePtab (sgetRange comp c.arg0.toNat (ptabLen (recBits (sgetRange comp c.arg0.toNat 16) 0 2))) false =
            some pt →
          ∃ t, exec (.cardTable comp) s = .next t ∧ t.tabs.ptab = s.tabs.ptab.set (field c.arg1 8 6) (some pt)
            (by show nbits _ 8 6 < 64; unfold nbits; omega))) ∧
    (c.opc = 7 → ∃ t, exec .cardAttest s = .next t ∧ taken t ∧ t.rooms = s.rooms ∧ t.mem = s.mem ∧ t.job = s.job ∧
      t.pal.attests = s.pal.attests ++ [c])

/-- R661, R662, R666 to R668: an answer ends its request; a companion read of HBM enters its stack queue and changes no byte, and a
write of it enters its stack queue and is answered. R656, R658: credits and acknowledgements of flits. -/
def Obligations.PalboMessagesAct : Prop :=
  ∀ (s : State), s.palUp = true →
    (∀ (h : PalboHdr) (data : Bytes) (q : PReq) (id part : Nat), s.pal.reqs.find? (fun x => x.rid == h.rid) = some q →
      q.op = 1 → q.use = .fetch id part →
      ∃ t, exec (.palboData h data) s = .next t ∧ t.rooms = s.rooms ∧ t.mem.hbm = s.mem.hbm ∧ t.flt = s.flt ∧
        ∀ r, s.reqOf id = some r → ∃ e, t.reqOf id = some e ∧ e.flits = r.flits.filter (· != part) ∧
          (∀ i, i < r.data.length → i = part →
            e.data[i]? = some (slice data 0 256, if h.poison then BitVec.allOnes 32 else 0))) ∧
    (∀ (h : PalboHdr) (q : PReq) (id : Nat), s.pal.reqs.find? (fun x => x.rid == h.rid) = some q → q.op = 2 →
      q.use = .put id →
      ∃ t, exec (.palboCmp h) s = .next t ∧ t.rooms = s.rooms ∧ t.mem.hbm = s.mem.hbm ∧ t.flt = s.flt ∧
        ∀ r, s.reqOf id = some r → ∃ e, t.reqOf id = some e ∧ e.flits = r.flits.drop 1 ∧
          (r.flits.length ≤ 1 → e.phase = .served)) ∧
    (∀ (h : PalboHdr) (a : BitVec 48) (multi : Bool), s.compBad h a.toNat multi = none → s.compTarget a.toNat = .hbm →
      s.porchFull (stackOf a.toNat) = false → stackOf a.toNat < 8 →
      ∃ t i, exec (.cRd h a multi) s = .next t ∧ t.rooms = s.rooms ∧ t.mem.hbm = s.mem.hbm ∧ t.flt = s.flt ∧
        (t.stack (stackOf a.toNat)).queue = (s.stack (stackOf a.toNat)).queue ++ [i] ∧
        (∀ k, k < 8 → k ≠ stackOf a.toNat → t.stack k = s.stack k) ∧ t.pal.unacked = s.pal.unacked ∧
        i.ans = some (h.rid, multi) ∧ i.req = none ∧ i.addr = a.toNat ∧ i.n = (if multi then 256 else 64) ∧
        i.writes = [] ∧ i.bad = [] ∧ t.pal.comp = s.pal.comp ++ [h.rid]) ∧
    (∀ (h : PalboHdr) (a : BitVec 48) (multi : Bool) (mask : BitVec 8) (data : Bytes), s.compBad h a.toNat multi = none →
      s.compTarget a.toNat = .hbm → s.porchFull (stackOf a.toNat) = false → stackOf a.toNat < 8 →
      ∃ t i, exec (.cWr h a multi mask data) s = .next t ∧ t.rooms = s.rooms ∧ t.mem.hbm = s.mem.hbm ∧ t.flt = s.flt ∧
        (t.stack (stackOf a.toNat)).queue = (s.stack (stackOf a.toNat)).queue ++ [i] ∧
        i.writes = (maskedWords mask (if multi then 4 else 1) data).map fun w => (a.toNat + w.1, w.2)) ∧
    (∀ req mon, ∃ t, exec (.palboCreditAdvertise req mon) s = .next t ∧ t = { s with pal := t.pal } ∧
      t.pal.monCred = mon ∧ t.pal.reqCred ≤ req ∧ (s.pal.waiting = [] → t.pal.reqCred = req)) ∧
    (∀ aseq nak, (∃ t, exec (.palboFlitReplay aseq nak true) s = .next t ∧
        t = { s with pal := { s.pal with nak := true } }) ∧
      (s.pal.waiting = [] → exec (.palboFlitReplay aseq false false) s = .next { s with pal := s.pal.acked aseq }))

/-- R656, R684, R686 to R690: a request unanswered for the limit completes locally as a violation; a link that cannot come back is fenced for good; the end of retraining brings the link back; and a
waiting Doorplate leaves when nothing it must follow is outstanding. -/
def Obligations.PalboLinkStates : Prop :=
  ∀ (s : State),
    (∀ (rid : BitVec 8) (q : PReq), s.pal.reqs.find? (fun x => x.rid == rid) = some q →
      q.sentAt + s.rspLimit ≤ s.rc → q.use = .doorplate →
      ∃ t, exec (.palboRspTimeout rid) s = .next t ∧ t.rooms = s.rooms ∧ t.mem = s.mem ∧ t.pal.viol = true ∧
        t.pal.lastCode = 7#8 ∧ t.pal.localDone = s.pal.localDone + 1 ∧ t.pal.dropped = satAdd s.pal.dropped 1 ∧
        ∃ rp, t.flt.queue[s.flt.queue.length]? = some rp ∧ rp.code = 0x8001#16) ∧
    (s.thr.pwr.palbo = true → s.pal.fenced = false → (s.palTired = true ∨ (s.pal.live = false ∧
        s.pal.downSince + s.linkLost ≤ s.rc)) →
      ∃ t, exec .palboFenced s = .next t ∧ t.pal.fenced = true ∧ t.pal.live = false ∧ t.pal.retraining = false ∧
        t.pal.reqs = [] ∧ t.pal.waiting = [] ∧ t.pal.plate = none ∧ t.pal.card = none ∧ t.pal.armed = 0 ∧
        t.mem.hbm = s.mem.hbm ∧ ∃ rp ∈ t.flt.queue, rp.code = 0x8003#16) ∧
    (∀ req mon aseq, s.thr.pwr.palbo = true → s.pal.retraining = true → s.pal.fenced = false → s.palTired = false →
      ∃ t, exec (.palboRetrainingEnd req mon aseq) s = .next t ∧ t = { s with pal := t.pal } ∧ t.pal.live = true ∧
        t.pal.retraining = false ∧ t.pal.monCred = mon ∧ (s.pal.waiting = [] → t.pal.reqCred = req)) ∧
    (∀ d : Plate, s.pal.plate = some d → s.palUp = true → s.pal.enabled = true → s.plateHeld d.mark = false →
      s.pal.waiting = [] → s.pal.freeRid.isSome = true → 0 < s.pal.reqCred → s.pal.unacked.length < 128 →
      ∃ t, exec .doorplateSend s = .next t ∧ t = { s with pal := t.pal } ∧ t.pal.plate = none ∧
        t.pal.doorplates = satAdd s.pal.doorplates 1 ∧ t.pal.waiting = [] ∧ t.pal.reqCred = s.pal.reqCred - 1 ∧
        ∃ q, t.pal.reqs = s.pal.reqs ++ [q] ∧ q.use = .doorplate ∧ q.op = 2 ∧ q.sentAt = s.rc)

/-! ## The fabric -/

/-- R617, R618, R604: a good data slot of a live port returns its credits and acknowledges its series; the expected one hands its packet to the router, or to the
back stair of its lane, and any other, like an uncorrectable one, asks for a replay. A Stairwell slot does the same in its own series, and its message for this rank reaches the Threshold; one with a reserved SOP raises FAB_PACKET (R797). -/
def Obligations.SlotsArriveInOrder : Prop :=
  ∀ (s : State) (no : PortId) (sl : Slot),
    let p := porchOf no
    let n := portIn no
    let x := s.porch p
    let q := x.port n
    let h := sl.header
    let credited : Port := { q with
      bsCred := Vector.ofFn fun (i : Fin 2) => q.bsCred[i.val] + b2n (bit h (17 + i.val))
      stwCred := Vector.ofFn fun (i : Fin 2) => q.stwCred[i.val] + b2n (bit h (19 + i.val)) }
    let k : Pkt := { hdr := h, data := slice sl.payload 0 256, mask := fullMask, poison := 0 }
    q.live = true → q.mirror = false → sl.frame.val ≠ 0 →
    (sl.bad = true → exec (.portSlotReceive no sl) s = .next (s.setPorch p (x.setPort n
      (if sl.frame.val = 32 then { q with sser := { q.sser with nak := true } }
       else { q with dser := { q.dser with nak := true } })))) ∧
    (sl.bad = false → sl.frame.val ≠ 32 → q.stwOut = [] → bit h 16 = false → pktKind h ≠ 0 →
      let ser := q.dser.ack (h.extractLsb' 8 8)
      (h.extractLsb' 0 8 ≠ q.dser.expect →
        exec (.portSlotReceive no sl) s =
          .next (s.setPorch p (x.setPort n { credited with dser := { ser with nak := true } }))) ∧
      (h.extractLsb' 0 8 = q.dser.expect →
        let taken : Port := { credited with dser := { ser with expect := q.dser.expect + 1, nak := false } }
        (badPacket sl.frame.val h = true → ∃ rp, exec (.portSlotReceive no sl) s =
          .next { s.setPorch p (x.setPort n taken) with flt := { s.flt with queue := s.flt.queue ++ [rp] } } ∧
          rp.code = 0x7003#16) ∧
        (badPacket sl.frame.val h = false → pktKind h ≠ kStw → pktBs h = false →
          exec (.portSlotReceive no sl) s =
            .next (s.setPorch p { x.setPort n taken with inq := x.inq ++ [(n, k)] })) ∧
        (badPacket sl.frame.val h = false → pktKind h ≠ kStw → pktBs h = true →
          ∃ b, exec (.portSlotReceive no sl) s = .next (s.setPorch p (x.setPort n { taken with bsIn := b })) ∧
            ∀ i, i < 2 → b.toList.getD i [] = q.bsIn.toList.getD i [] ++ if i = pktLane h then [k] else []))) ∧
    (sl.bad = false → sl.frame.val = 32 → q.stwOut = [] → bit h 16 = false → pktKind h = kStw →
      badPacket 32 h = false → h.extractLsb' 0 8 = q.sser.expect → pktDrank h = s.ownRank →
      (1 ≤ getLE k.data 0 1 → getLE k.data 0 1 ≤ 0x12 →
        ∃ t, exec (.portSlotReceive no sl) s = .next t ∧ t.rooms = s.rooms ∧ t.mem = s.mem ∧ t.flt = s.flt ∧
          t.thr.stw.inbox = s.thr.stw.inbox ++ [k] ∧
          ((t.porch p).port n).sser = { q.sser.ack (h.extractLsb' 8 8) with expect := q.sser.expect + 1, nak := false }) ∧
      (getLE k.data 0 1 = 0 ∨ 0x12 < getLE k.data 0 1 → (s.porch 0).rankOk (pktSrank h).toNat = true → bit (pktArg h) 0 = false →
        ∃ t rp, exec (.portSlotReceive no sl) s = .next t ∧ t.thr.stw.inbox = s.thr.stw.inbox ∧
          t.flt.queue = s.flt.queue ++ [rp] ∧ rp.code = 0x7003#16))

/-- R618, R620 to R622: an outage of LINK_LOST_RC discards what was not acknowledged and raises FAB_LINK_LOST once; the end of
retraining makes a rightly wired port live again, which replays with RETRIED what its partner has not received; a miswired one stays down. -/
def Obligations.PortsAreLostAndReturn : Prop :=
  ∀ (s : State) (no : PortId),
    let p := porchOf no
    let n := portIn no
    let x := s.porch p
    let q := x.port n
    (q.enable = true → q.mirror = false → q.live = false → q.lost = false → q.downSince + s.linkLost ≤ s.rc →
      ∃ rp, exec (.fabLinkLost no) s = .next { s.setPorch p (x.setPort n { q with
          lost := true, dser := { q.dser with unacked := [] }, sser := { q.sser with unacked := [] } }) with
          flt := { s.flt with queue := s.flt.queue ++ [rp] } } ∧
        rp.code = 0x7005#16 ∧ rp.cls = 1#2 ∧
        rp.body = [BitVec.ofNat 64 no.val, BitVec.ofNat 64 (q.dser.unacked.length + q.sser.unacked.length)]) ∧
    (∀ (b : PortBringUp) (a sa : BitVec 8), q.retraining = true → q.mirror = false → b.trained = true →
      b.mirror = false →
      (b.partDim = q.dim → b.partDir ≠ q.dir → b.rtt ≤ 112 → q.stwOut = [] →
        ∃ r, exec (.portRetrainingEnd no b a sa) s = .next (s.setPorch p (x.setPort n { q with
            live := true, retraining := false, lost := false, delay := b.delay, rtt := b.rtt, replays := r
            downSince := if q.live then s.rc else q.downSince
            dser := { (q.dser.ack a).replay with nak := false }
            sser := { (q.sser.ack sa).replay with nak := false } }))) ∧
      (b.partDim ≠ q.dim ∨ b.partDir = q.dir →
        ∃ t rp, exec (.portRetrainingEnd no b a sa) s = .next t ∧ ((t.porch p).port n).live = false ∧
          ((t.porch p).port n).dser = q.dser ∧ t.rooms = s.rooms ∧ t.flt.queue = s.flt.queue ++ [rp] ∧
          rp.code = 0x7007#16))

/-- R594 to R600, R598: with the back stair and the hold buffer quiet a router takes the oldest of the arriving packets: one for a Room here is ejected, any other leaves on the first free
productive port one router older, else on the first free port at all; with nothing free it is held, and with the hold buffer full its input refuses it; a packet without a route is discarded. -/
def Obligations.RouterTakesTheOldest : Prop :=
  ∀ (s : State) (p : PorchId) (free : BitVec 24) (e : Nat × Pkt), s.bsStep p free = none → s.holdStep p free = none →
    let x := s.porch p
    let k := e.2
    e ∈ x.inq → (∀ f ∈ x.inq, f = e ∨ pktAge f.2.hdr < pktAge k.hdr ∨ pktAge f.2.hdr = pktAge k.hdr ∧ e.1 < f.1) →
    let rest := delFirst (fun y => decide (y = e)) x.inq
    (pktDrank k.hdr = s.ownRank → destPorch k.hdr = p → s.ejectFree p k.hdr = true →
      exec (.routerPacketRoute p free) s = .next (s.setPorch p
        (if toQueue (pktKind k.hdr) then { x with inq := rest, ejected := x.ejected + 1, ejq := x.ejq ++ [k] }
         else { x with inq := rest, ejected := x.ejected + 1, cross := x.cross ++ [k] }))) ∧
    (pktDrank k.hdr ≠ s.ownRank → pktAge k.hdr < x.bsAge →
      (s.productive p (pktDrank k.hdr).toNat = none →
        ∃ rp, exec (.routerPacketRoute p free) s = .next { s.setPorch p { x with
            inq := rest, ejected := x.ejected + 1, unreach := satAdd x.unreach 1 } with
            flt := { s.flt with queue := s.flt.queue ++ [rp] } } ∧ rp.code = 0x7001#16) ∧
      (∀ ps far, s.productive p (pktDrank k.hdr).toNat = some (ps, far) →
        (∀ n, (ps.find? (s.portOpen p free) = some n ∨ ps.find? (s.portOpen p free) = none ∧
            (far = false ∨ bridgeLane free = none) ∧ (List.range 16).find? (s.portOpen p free) = some n) →
          (x.port n).dser.unacked.length + 1 < 128 →
          ∃ t h, exec (.routerPacketRoute p free) s = .next t ∧ t.rooms = s.rooms ∧ t.flt = s.flt ∧
            (t.porch p).inq = rest ∧ (t.porch p).hold = x.hold ∧
            ((t.porch p).port n).dser = { (x.port n).dser with
              next := (x.port n).dser.next + 1
              unacked := (x.port n).dser.unacked ++ [((x.port n).dser.next, { k with hdr := h })] } ∧
            pktAge h = min (pktAge k.hdr + 1) 31 ∧ h.extractLsb' 21 46 = k.hdr.extractLsb' 21 46 ∧
            h.extractLsb' 72 56 = k.hdr.extractLsb' 72 56 ∧
            (t.porch p).deflected = x.deflected + if ps.contains n then 0 else 1) ∧
        (free = 0 → x.hold.length < 8 →
          exec (.routerPacketRoute p free) s = .next (s.setPorch p { x with
            inq := rest, hold := x.hold ++ [k], holdMax := BitVec.ofNat 8 (max x.holdMax.toNat (x.hold.length + 1)) })) ∧
        (free = 0 → 8 ≤ x.hold.length → e.1 < 16 →
          ∃ t, exec (.routerPacketRoute p free) s = .next t ∧ t.rooms = s.rooms ∧ t.flt = s.flt ∧
            (t.porch p).inq = x.inq.filter (fun f => f.1 != e.1) ∧ (t.porch p).hold = x.hold ∧
            (t.porch p).refusals = satAdd x.refusals 1 ∧ ((t.porch p).port e.1).dser.nak = true ∧
            ((t.porch p).port e.1).dser.expect = (x.port e.1).dser.expect -
              BitVec.ofNat 8 (x.inq.filter fun f => f.1 == e.1).length)))

/-- R586, R601, R613, R614, R649: the head of a departure buffer leaves for its first destination on a free productive port and its tracker counts it; flagged, it waits while a
tracker of its destinations counts; a destination outside the job discards it untracked; a line for the companion leaves over Palbo, and one for a collective context joins the contributions. -/
def Obligations.DeparturesLeave : Prop :=
  ∀ (s : State) (r : RoomId) (free : BitVec 24) (d : Dep) (rest : List Dep), (s.room r).out.buf = d :: rest →
    let p := homePorch r
    let x := s.porch p
    let rm := s.room r
    (d.tgt ≠ 3 → (d.tgt ≠ 4 ∨ d.mch < 0x80) → ∀ whom more, d.copies = whom :: more →
      let left := if more.isEmpty then rest else { d with copies := more } :: rest
      (x.rankOk whom.1.toNat = false →
        ∃ t rp, exec (.departureInject r free) s = .next t ∧ t.fab = s.fab ∧ (t.room r).out.buf = left ∧
          (t.room r).out.trk = rm.out.trk ∧ (∀ i, i ≠ r → t.room i = s.room i) ∧
          t.flt.queue = s.flt.queue ++ [rp] ∧ rp.code = 0x7002#16 ∧ rp.body = [whom.1.zeroExtend 64]) ∧
      (x.rankOk whom.1.toNat = true → (rm.flagWait d = true ∨ rm.trkWait d = true) →
        exec (.departureInject r free) s = .next s) ∧
      (x.rankOk whom.1.toNat = true → rm.flagWait d = false → rm.trkWait d = false → whom.1 ≠ s.ownRank →
        ∀ ps far n, s.productive p whom.1.toNat = some (ps, far) → ps.find? (s.portOpen p free) = some n →
        (x.port n).dser.unacked.length + 1 < 128 →
        ∃ t k, exec (.departureInject r free) s = .next t ∧ t.flt = s.flt ∧ (∀ i, i ≠ r → t.room i = s.room i) ∧
          (t.room r).out.buf = left ∧ (t.room r).out.trk = (rm.out.track whom.1 whom.2).trk ∧
          (t.room r).pan = rm.pan ∧ (t.porch p).injected = x.injected + 1 ∧
          ((t.porch p).port n).dser.unacked = (x.port n).dser.unacked ++ [((x.port n).dser.next, k)] ∧
          k.data = (d.packet s.ownRank r whom).data ∧ pktDrank k.hdr = whom.1 ∧ pktDroom k.hdr = whom.2 ∧
          pktSrank k.hdr = s.ownRank ∧ (pktSroom k.hdr).toNat = r.val ∧ pktTag k.hdr = d.tag ∧ pktAge k.hdr = 1)) ∧
    (d.tgt = 3 → s.pal.fenced = false → s.smoke.debug = false →
      ∃ t, exec (.departureInject r free) s = .next t ∧ t.fab = s.fab ∧ t.mem = s.mem ∧ (t.room r).out.buf = rest ∧
        ((∃ m ∈ t.pal.waiting, m.use = some (.outlet d.lat.toNat) ∧ m.data = d.data) ∨
          ∃ q ∈ t.pal.reqs, q.use = .outlet d.lat.toNat ∧ q.addr = d.addr)) ∧
    (d.tgt = 4 → 0x80 ≤ d.mch → d.mch < 0x90 → d.kind = .line →
      let ctx := x.coll.toList.getD (d.mch - 0x80) default
      bit ctx.entry 0 = false ∨ (ctx.count + (x.contrib.filter fun t => t.ctx == d.mch - 0x80).length) /
        (field ctx.entry 56 6 + 1) < ctx.first + 2 →
      ∃ t, exec (.departureInject r free) s = .next t ∧ (t.room r).out.buf = rest ∧ t.flt = s.flt ∧
        t.porch p = { x with contrib := x.contrib ++
          [{ ctx := d.mch - 0x80, room := r, tag := d.tag, line := d.addr, data := d.data }] })

/-- R606, R612 to R614: an ejected packet enters its Room's arrival buffer, the reserved entries first; an ACK names its source, its Room and
COUNT; an ACK that arrives counts the tracker of its destination down, frees it at 0, and charges a freeze it ends by its RETRIED bit. -/
def Obligations.EjectionsAndAcks : Prop :=
  ∀ (s : State) (p : PorchId),
    let x := s.porch p
    let okRoom (k : Pkt) : Bool := (s.room (roomIdOf (pktDroom k.hdr).toNat)).bufFree
    let good (k : Pkt) : Prop := homePorch (roomIdOf (pktDroom k.hdr).toNat) = p ∧ (pktDroom k.hdr).toNat < 96 ∧
      (s.room (roomIdOf (pktDroom k.hdr).toNat)).on = true ∧
      (pktKind k.hdr ≠ kInc ∨ nbits (pktArg k.hdr).toNat 0 6 ≤ 47)
    let given (y : Porch) (k : Pkt) : State :=
      let r := roomIdOf (pktDroom k.hdr).toNat
      (s.setPorch p y).setRoom r { s.room r with
        pan := { (s.room r).pan with buf := (s.room r).pan.buf ++ [k.arrival] } }
    (∀ e, x.resv.find? (fun e => okRoom e.2) = some e → good e.2 →
      exec (.packetEject p) s = .next (given { x with resv := delFirst (fun y => decide (y = e)) x.resv } e.2)) ∧
    (∀ k, x.resv.find? (fun e => okRoom e.2) = none →
      x.cross.find? (fun k => okRoom k && (s.wing (wingOf (roomIdOf (pktDroom k.hdr).toNat))).clockOn) = some k → good k →
      exec (.packetEject p) s = .next (given { x with cross := delFirst (fun y => decide (y = k)) x.cross } k)) ∧
    (∀ srank sroom droom e,
      x.acks.find? (fun e => e.srank == srank && e.sroom == sroom && e.droom == droom) = some e →
      ∃ t h, exec (.ackSend p srank sroom droom) s = .next t ∧ t.rooms = s.rooms ∧ t.flt = s.flt ∧
        t.porch p = { x with
          acks := delFirst (fun e => e.srank == srank && e.sroom == sroom && e.droom == droom) x.acks
          ackOut := x.ackOut ++ [barePkt h] } ∧
        pktKind h = kAck ∧ pktDrank h = srank ∧ pktDroom h = sroom ∧ pktSrank h = s.ownRank ∧ pktSroom h = droom ∧
        (pktArg h).toNat = min e.count 255 ∧ pktRetried h = e.retried) ∧
    (∀ r drank droom (count : BitVec 8) retried (k : Tracker), homePorch r = p →
      let mine (t : Tracker) : Bool := t.drank == drank && t.droom == droom
      (s.room r).out.trk.filter mine = [k] →
      ∃ t, exec (.ackReceive r drank droom count retried) s = .next t ∧ (∀ i, i ≠ r → t.room i = s.room i) ∧
        (t.room r).out.buf = (s.room r).out.buf ∧ t.flt = s.flt ∧
        (t.room r).out.trk.filter (fun t => !mine t) = (s.room r).out.trk.filter (fun t => !mine t) ∧
        (count.toNat < k.count.toNat →
          (t.room r).out.trk.filter mine = [{ k with count := k.count - count.zeroExtend 16 }]) ∧
        (k.count = count.zeroExtend 16 → (t.room r).out.trk.filter mine = []) ∧
        ((∃ tag, Frz.depart tag ∈ (s.room r).frz) →
          (t.wing (wingOf r)).frzBits = some (chargeOf retried false)))

/-! ## Collectives -/

/-- R638 to R641: a contributing line takes the next line number of the next instance, and a third instance waits; a partial that completes a line is combined in the
order of R639 and goes to the parent, or at member 0 is the result; a result is delivered and passed to the members below; a complete instance adds 1 to its latch at its generation. -/
def Obligations.CollectivesCombine : Prop :=
  ∀ (s : State) (p : PorchId), s.job.stopped = false →
    let x := s.porch p
    (∀ t rest, x.contrib = t :: rest →
      let c := s.ctxOf p t.ctx
      let e := c.entry
      t.ctx < 16 → collValid e = true → collRoom e = t.room.val → (memberOf e s.ownRank.toNat).isSome = true →
      (c.first + 2 ≤ c.count / collLines e → exec (.collContribution p) s = .next s) ∧
      (c.count / collLines e < c.first + 2 → c.insts = [] → ∀ m, memberOf e s.ownRank.toNat = some m →
        children (collCount e) m 13 1 ≠ [] →
        let l : CollLine := { idx := c.count % collLines e, dest := t.line, tag := t.tag, own := some t.data, parts := [],
                              sent := false, result := none, written := false }
        exec (.collContribution p) s = .next (s.setPorch p { x with
          contrib := rest
          coll := x.coll.setIfInBounds t.ctx { c with
            count := c.count + 1, insts := [{ no := c.count / collLines e, lines := [l] }] } }))) ∧
    (∀ (c : BitVec 4) (inst : BitVec 8) (idx : BitVec 6) (srank : BitVec 12) (data own : Bytes) (l : CollLine) (from_ m : Nat),
      let ctx := s.ctxOf p c.toNat
      let e := ctx.entry
      data.length = 256 → collValid e = true → memberOf e srank.toNat = some from_ → memberOf e s.ownRank.toNat = some m →
      children (collCount e) m 13 1 = [from_] → ctx.ahead inst.toNat < 2 →
      ctx.insts = [{ no := ctx.first + ctx.ahead inst.toNat, lines := [l] }] → l.idx = idx.toNat → l.parts = [] →
      l.sent = false → l.own = some own → m ≠ 0 →
      ∃ t k, exec (.collUp p c inst idx srank data) s = .next t ∧ t.rooms = s.rooms ∧ t.flt = s.flt ∧
        (t.porch p).collOut = x.collOut ++ [k] ∧ k.data = combineLines (collOp e) own data ∧ pktKind k.hdr = kCollUp ∧
        (pktDrank k.hdr).toNat = memberRank e (parentOf m 13 1) % 4096 ∧ pktTag k.hdr = l.tag) ∧
    (∀ (c : BitVec 4) (inst : BitVec 8) (idx : BitVec 6) (data : Bytes) (l : CollLine) (m : Nat),
      let ctx := s.ctxOf p c.toNat
      let e := ctx.entry
      let r := roomIdOf (collRoom e)
      data.length = 256 → collValid e = true → memberOf e s.ownRank.toNat = some m → ctx.ahead inst.toNat < 2 →
      ctx.lineOf (ctx.first + ctx.ahead inst.toNat) idx.toNat = some l → l.result = none → collHbm e = false →
      (s.room r).bufFree = true →
      ∃ t a, exec (.collDn p c inst idx data) s = .next t ∧ t.flt = s.flt ∧ (∀ i, i ≠ r → t.room i = s.room i) ∧
        t.room r = { s.room r with pan := { (s.room r).pan with buf := (s.room r).pan.buf ++ [a] } } ∧
        a.line = l.dest ∧ a.data = data ∧
        (t.porch p).collOut.map (fun k => k.data) =
          x.collOut.map (fun k => k.data) ++ (children (collCount e) m 13 1).map fun _ => data) ∧
    (∀ (c : BitVec 4) (inst : BitVec 8) (i : CollInst),
      let ctx := s.ctxOf p c.toNat
      let e := ctx.entry
      let no := ctx.first + ctx.ahead inst.toNat
      let r := roomIdOf (collRoom e)
      ctx.insts = [i] → i.no = no → ctx.ahead inst.toNat = 0 → i.lines.length = collLines e →
      (∀ l ∈ i.lines, l.written = true) → ctx.count < (ctx.first + 2) * collLines e → (s.room r).bufFree = true →
      ∃ t a, exec (.collInstanceComplete p c inst) s = .next t ∧ t.flt = s.flt ∧ (∀ i, i ≠ r → t.room i = s.room i) ∧
        t.room r = { s.room r with pan := { (s.room r).pan with buf := (s.room r).pan.buf ++ [a] } } ∧
        a.kind = .inc (collLatch e) (BitVec.ofNat 8 (collGen e + no)) 1 ∧
        t.ctxOf p c.toNat = { ctx with insts := [], first := ctx.first + 1 })

/-! ## The Stairwell -/

/-- R625, R631, R714, R797, R798, R802 to R810, R811: what STOP, QUIESCE, FREEZE and START do in each state of the job, what a message without the right does not do, and
that a write of GO sends its command to the job and applies it here. -/
def Obligations.JobMessagesAct : Prop :=
  ∀ (s : State),
    let still (t : State) : Prop := t.job = s.job ∧ t.rooms = s.rooms ∧ t.mem = s.mem
    let stopped (t : State) : Prop := t.job.stopped = true ∧ t.job.js = .draining ∧ t.job.pend = 0 ∧
      t.mem.hbm = s.mem.hbm ∧ ∀ r, (s.room r).on = true → (t.room r).seq.issuing = false ∧ (t.room r).stopped = true ∧
        (t.room r).pan.mem = (s.room r).pan.mem ∧ ∀ f ∈ (t.room r).frz, ∃ tag, f = .depart tag
    let running : Prop := s.job.js = .running ∧ ∀ w, (s.wing w).fstop = none
    (∀ m, StwDue s m (some rStop) →
      (running → ∃ t, exec (.stwStop m) s = .next t ∧ stopped t ∧
        t.thr.stw.received = satAdd s.thr.stw.received 1) ∧
      (s.job.js ≠ .loading → s.job.js ≠ .running → s.job.js ≠ .draining →
        ∃ t, exec (.stwStop m) s = .next t ∧ still t ∧ t.flt = s.flt) ∧
      (∀ kind i, (kind, i) ∈ [(1, Instr.stwQuiesce m), (2, Instr.stwFreeze m)] →
        (s.job.js ≠ .running → ∃ t, exec i s = .next t ∧ still t ∧ t.flt = s.flt) ∧
        (s.job.js = .running → s.job.frozen = false → s.job.pend = 0 →
          ∃ t, exec i s = .next t ∧ t.rooms = s.rooms ∧ t.mem = s.mem ∧ t.flt = s.flt ∧
            t.job = { s.job with pend := BitVec.ofNat 2 kind, pendStick := m.a } ∧
            t.thr.stw.late = (s.thr.stw.late || decide (m.a.toNat ≤ s.job.stick.toNat)))) ∧
      (s.job.js = .running → s.job.frozen = false → s.job.pend = 2 →
        ∃ t, exec (.stwQuiesce m) s = .next t ∧ t.rooms = s.rooms ∧ t.mem = s.mem ∧
          t.job = if s.job.pendStick < m.a then s.job else { s.job with pend := 1, pendStick := m.a })) ∧
    (∀ m i, i ∈ [Instr.stwStop m, Instr.stwQuiesce m, Instr.stwFreeze m] → StwDue s m none →
      s.granted 4 m.src.toNat rStop = false →
      ∃ t rp, exec i s = .next t ∧ still t ∧ t.flt.queue = s.flt.queue ++ [rp] ∧ rp.code = 0x9004#16) ∧
    (∀ m, StwDue s m (some rStart) → s.job.js = .loaded →
      (s.thr.clk.jclk ≤ m.b → ∃ t, exec (.stwStart m) s = .next t ∧ t.rooms = s.rooms ∧ t.mem = s.mem ∧ t.flt = s.flt ∧
        t.job = { s.job with t0 := m.a, startRc := m.b, seed := m.c, startRt := m.rtm, startSet := true }) ∧
      (m.b < s.thr.clk.jclk → ∃ t rp, exec (.stwStart m) s = .next t ∧ still t ∧
        t.flt.queue = s.flt.queue ++ [rp] ∧ rp.code = 0x7009#16)) ∧
    (∀ o, s.gbRoom = true → s.preBoot = false → s.may o rMgmtWrite = true → s.may o rStop = true →
      (running → ∃ t, exec (.goStop o) s = .next t ∧ stopped t ∧ t.thr.stw.lastSop = 1#8 ∧
        t.thr.stw.lastSeq = s.thr.stw.seqNo + 1 ∧ t.thr.stw.acks = 1 ∧ t.thr.stw.naks = 0) ∧
      (∀ kind i, (kind, i) ∈ [(1, Instr.goQuiesce o), (2, Instr.goFreeze o)] → s.job.js = .running →
        s.job.frozen = false → s.job.pend = 0 →
        ∃ t, exec i s = .next t ∧ t.rooms = s.rooms ∧ t.mem = s.mem ∧
          t.job = { s.job with pend := BitVec.ofNat 2 kind, pendStick := s.leadStick } ∧
          t.thr.stw.lastSop = BitVec.ofNat 8 (kind + 1) ∧ t.thr.stw.acks = 1))

/-- R629, R630, R632 to R634, R744, R797: ALIGN sets THRESH_JCLK to the nearest rc of its estimate, and fails with a residual above 19; a tick check that holds is counted, one that fails puts the package
out of step, and realigns one that is; OOS of an announcing rank is set and cleared in both Porches; the fault of a peer waits for the boundary. -/
def Obligations.AlignmentKeepsStep : Prop :=
  ∀ (s : State) (m : StwMsg),
    let still (t : State) : Prop := t.rooms = s.rooms ∧ t.mem = s.mem
    (∀ port : PortId, StwDue s m (some rStart) → (s.job.js = .running → s.job.rt = true) →
      let est := 64 * m.a.toNat + (m.b.toNat + ((s.porch (porchOf port)).port (portIn port)).delay.toNat)
      let n := (est + 32) / 64
      let res : Int := (est : Int) - 64 * (n : Int)
      ∃ t, exec (.stwAlign m port) s = .next t ∧ still t ∧ t.job = s.job ∧
        (res.natAbs ≤ 19 → t.flt = s.flt ∧ t.thr.clk = { s.thr.clk with
          jclkSet := some (BitVec.ofNat 64 n), residual := BitVec.ofInt 8 res, aligned := true }) ∧
        (19 < res.natAbs → t.thr.clk = { s.thr.clk with
            jclkSet := some (BitVec.ofNat 64 n), residual := BitVec.ofInt 8 res, aligned := false, alignFail := true } ∧
          ∃ rp, t.flt.queue = s.flt.queue ++ [rp] ∧ rp.code = 0x7008#16)) ∧
    (StwDue s m (some rStart) → s.job.js = .running → s.job.rt = true → s.thr.clk.tickSet = none →
      let p := max s.tickRc 1
      let holds : Prop :=
        (s.jclkLast : Int) = (m.b.toNat : Int) + ((s.job.tick.toNat : Int) - (m.a.toNat : Int)) * (p : Int)
      (s.thr.clk.outOfStep = false → holds → ∃ t, exec (.stwTickCheck m) s = .next t ∧ still t ∧ t.job = s.job ∧
        t.flt = s.flt ∧ t.thr.clk = { s.thr.clk with checks := s.thr.clk.checks + 1 }) ∧
      (s.thr.clk.outOfStep = false → ¬ holds → ∃ t, exec (.stwTickCheck m) s = .next t ∧ still t ∧ t.job = s.job ∧
        t.thr.clk = { s.thr.clk with outOfStep := true } ∧ t.thr.stw.lastSop = 7#8 ∧
        ∀ q, bit ((t.porch q).entry s.ownRank.toNat) 41 = true) ∧
      (s.thr.clk.outOfStep = true → s.thr.clk.refOk = true →
        let d := (((m.b.toNat : Int) - (s.jclkNext : Int)) % (p : Int)).toNat
        ∃ t v, exec (.stwTickCheck m) s = .next t ∧ still t ∧ t.job = { s.job with bound := s.job.bound + d } ∧
          t.thr.clk = { s.thr.clk with tickSet := some v, delta := d })) ∧
    (StwDue s m none → (∀ q, swf (s.porch q).entries = true) →
      (∃ t rp, exec (.stwOutOfStep m) s = .next t ∧ still t ∧ t.job = s.job ∧ t.flt.queue = s.flt.queue ++ [rp] ∧
        rp.code = 0x700A#16 ∧ ∀ q, bit ((t.porch q).entry m.src.toNat) 41 = true ∧
          ∀ k, k ≠ m.src.toNat → (t.porch q).entry k = (s.porch q).entry k) ∧
      (∃ t, exec (.stwInStep m) s = .next t ∧ still t ∧ t.job = s.job ∧ t.flt = s.flt ∧
        ∀ q, bit ((t.porch q).entry m.src.toNat) 41 = false ∧
          ∀ k, k ≠ m.src.toNat → (t.porch q).entry k = (s.porch q).entry k) ∧
      (s.job.js = .running → s.thr.stw.peer = none →
        ∃ t rp, exec (.stwFaulted m) s = .next t ∧ still t ∧ t.job = s.job ∧
          t.thr.stw.peer = some (m.src, m.a.extractLsb' 0 16) ∧ t.flt.queue = s.flt.queue ++ [rp] ∧
          rp.code = 0x700E#16 ∧ rp.cls = 1#2))

/-- R591, R592, R797: a drain query is answered with both totals, reports are collected, and the map opens in both Porches only after two equal collections,
or at once for a single quiet rank; MAP_OPEN and MAP_CLOSE set and clear it. -/
def Obligations.TheMapOpensWhenDrained : Prop :=
  ∀ (s : State),
    let still (t : State) : Prop := t.rooms = s.rooms ∧ t.mem = s.mem ∧ t.job = s.job ∧ t.flt = s.flt
    let opened (v : Nat) (t : State) : Prop := ∀ p, (t.porch p).cfg = setField (s.porch p).cfg 69 1 v
    (∀ m, StwDue s m (some rRankMap) → exec (.stwDrainQuery m) s =
      .next ((s.heard 0x0A m).stwUnicast m.src 0x0B s.totals.1.toNat s.totals.2.toNat 0 []).2) ∧
    (∀ m, StwDue s m none → s.thr.stw.draining = true → (∀ r ∈ s.thr.stw.reports, r.1 ≠ m.src) →
      ∃ t, exec (.stwDrainReport m) s = .next t ∧ still t ∧
        t.thr.stw.reports = s.thr.stw.reports ++ [(m.src, m.a, m.b)] ∧
        t.thr.stw.drainAt = if (s.porch 0).ranks.length ≤ s.thr.stw.reports.length + 1 then s.rc + 1000
          else s.thr.stw.drainAt) ∧
    (s.preBoot = false → (s.porch 0).mapOpen = false → s.gbRoom = true →
      ((s.porch 0).nranks = 1 →
        (s.totals.1 = s.totals.2 → (s.porch 0).quiet = true → (s.porch 1).quiet = true →
          ∃ t, exec .mapDrainCheck s = .next t ∧ still t ∧ opened 1 t) ∧
        (s.totals.1 ≠ s.totals.2 → exec .mapDrainCheck s = .next s)) ∧
      ((s.porch 0).nranks ≠ 1 → s.ownRank = (s.porch 0).root →
        (s.thr.stw.draining = false → ∃ t, exec .mapDrainCheck s = .next t ∧ still t ∧ t.thr.stw.draining = true ∧
          t.thr.stw.reports = [(s.ownRank, s.totals)] ∧ t.thr.stw.former = none ∧ t.thr.stw.lastSop = 0x0A#8) ∧
        (s.thr.stw.draining = true → (s.porch 0).ranks.length ≤ s.thr.stw.reports.length → s.thr.stw.drainAt ≤ s.rc →
          let a := s.thr.stw.reports.foldl (fun n r => n + r.2.1) 0#64
          let b := s.thr.stw.reports.foldl (fun n r => n + r.2.2) 0#64
          (s.thr.stw.former = some (a, b) → a = b →
            ∃ t, exec .mapDrainCheck s = .next t ∧ still t ∧ opened 1 t ∧ t.thr.stw.lastSop = 0x0C#8) ∧
          ((s.thr.stw.former ≠ some (a, b) ∨ a ≠ b) →
            ∃ t, exec .mapDrainCheck s = .next t ∧ still t ∧ t.thr.stw.former = some (a, b) ∧
              t.thr.stw.draining = true ∧ t.thr.stw.reports = [(s.ownRank, s.totals)] ∧
              ∀ p, (t.porch p).cfg = (s.porch p).cfg)))) ∧
    (∀ m, StwDue s m (some rRankMap) →
      (∃ t, exec (.stwMapOpen m) s = .next t ∧ still t ∧ opened 1 t) ∧
      ((s.porch 0).mapOpen = true → ∃ t, exec (.stwMapClose m) s = .next t ∧ still t ∧ opened 0 t)) ∧
    (∀ m, m.src = s.ownRank → s.gbRoom = true → (s.porch 0).mapOpen = true →
      ∃ t, exec (.stwMapClose m) s = .next t ∧ still t ∧ opened 0 t ∧ t.thr.stw.lastSop = 0x0D#8)

/-- R561, R562, R784, R797, R799 to R802, R812: what other packages read and write here is served and answered, and a read changes nothing of the device; a probe is answered by
whether its destination waits for the probing Room, and both sides raise MAILSLOT_DEADLOCK when it does; answers to the latest broadcast are counted. -/
def Obligations.OtherPackagesReadAndProbe : Prop :=
  ∀ (s : State) (m : StwMsg),
    let still (t : State) : Prop := t.rooms = s.rooms ∧ t.mem = s.mem ∧ t.job = s.job ∧ t.flt = s.flt
    (StwDue s m (some rMgmtRead) →
      exec (.stwStateRead m) s = .next ((s.heard 0x0E m).stwRespond m.src 0x0E m.seq respOk 0 s.stateRecord)) ∧
    (StwDue s m none →
      (s.may (.rank m.src) rMgmtRead = true → s.may (.rank m.src) rGbRead = true → 1 ≤ m.b.toNat → m.b.toNat ≤ 28 →
        ∃ t, exec (.stwMgmtRead m) s = .next t ∧ still t ∧ t.pal = s.pal ∧ t.smoke = s.smoke ∧ t.mir = s.mir ∧
          t.wings = s.wings ∧ t.tabs = s.tabs ∧ t.thr.guest = s.thr.guest ∧
          t.thr.stw.sent = satAdd s.thr.stw.sent 1) ∧
      (let x := (s.heard 0x10 m).mgmtWrite (.rank m.src) m.a.toNat m.b 0
       exec (.stwMgmtWrite m) s = s.done (x.2.stwRespond m.src 0x10 m.seq x.1 0 [])) ∧
      (let d := roomIdOf (field m.a 0 7)
       (∀ tag, s.waitsFor d m.src (field m.a 8 7) = some tag →
         ∃ t rp, exec (.stwProbe m) s = .next t ∧ t.rooms = s.rooms ∧ t.mem = s.mem ∧ t.job = s.job ∧
           t.flt.queue = s.flt.queue ++ [rp] ∧ rp.code = 0x6017#16 ∧ rp.cls = 1#2 ∧ rp.tag = tag ∧
           t.thr.stw.sent = satAdd s.thr.stw.sent 1) ∧
       (s.waitsFor d m.src (field m.a 8 7) = none → ∃ t, exec (.stwProbe m) s = .next t ∧ still t ∧
         t.thr.stw.sent = satAdd s.thr.stw.sent 1)) ∧
      (let w := s.thr.stw
       (field m.a 0 8 = w.lastSop.toNat → m.a.extractLsb' 8 16 = w.lastSeq → field m.a 0 8 ≠ 0x11 →
         ∃ t, exec (.stwResponse m) s = .next t ∧ still t ∧
           t.thr.stw.acks = (if field m.a 24 3 = 0 then satAdd w.acks 1 else w.acks) ∧
           t.thr.stw.naks = (if field m.a 24 3 = 0 then w.naks else satAdd w.naks 1)) ∧
       (∀ p, w.probes.find? (fun p => p.1 == m.a.extractLsb' 8 16) = some p → field m.a 0 8 = 0x11 →
         (bit m.b 0 = false → ∃ t, exec (.stwResponse m) s = .next t ∧ still t ∧
           t.thr.stw.probes = delFirst (fun q => q.1 == m.a.extractLsb' 8 16) w.probes) ∧
         (bit m.b 0 = true → ∃ t rp, exec (.stwResponse m) s = .next t ∧ t.rooms = s.rooms ∧
           t.flt.queue = s.flt.queue ++ [rp] ∧ rp.code = 0x6017#16 ∧
           rp.lroom = BitVec.ofNat 7 (roomIdOf (p.2 % 128)).val)))) ∧
    (∀ (r : RoomId) tag c (ch : SendChan) (d : SendDest), (s.room r).creditWaits = [(tag, c)] →
      (s.room r).probeAt + s.mailWatch ≤ s.rc → (s.room r).comm.sends[c]? = some ch → ch.dests = [d] →
      let rank := if ch.tgt = 0 then s.ownRank else d.rank
      let e := roomIdOf d.room.toNat
      let probed : Room := { s.room r with probeAt := s.rc }
      (rank = s.ownRank → wingOf e ≠ wingOf r → s.waitsFor e rank r.val = none →
        exec (.creditProbe r) s = .next (s.setRoom r probed)) ∧
      (rank = s.ownRank → wingOf e = wingOf r →
        ∃ t rp, exec (.creditProbe r) s = .next t ∧ t.room r = probed ∧ (∀ k, k ≠ r → t.room k = s.room k) ∧
          t.flt.queue = s.flt.queue ++ [rp] ∧ rp.code = 0x6017#16 ∧ rp.tag = tag) ∧
      (rank ≠ s.ownRank → ∃ t, exec (.creditProbe r) s = .next t ∧ t.room r = probed ∧ t.flt = s.flt ∧
        (∀ k, k ≠ r → t.room k = s.room k) ∧
        t.thr.stw.probes = s.thr.stw.probes ++ [(s.thr.stw.seqNo + 1, r.val + 128 * d.room.toNat)]))

/-! ## The management space -/

/-- R13 to R16, R715, R730, R750, R758, R759, R768, R775, R784, R786: a write takes its RW fields and clears its W1C bits, a set by hardware in the same cycle
prevailing; without the right it changes nothing and is recorded; a read captures and changes nothing else; READ_MARK moves forward only to what is written; debug mode, the Mirror port and a trace
control word follow their rules. -/
def Obligations.ManagementAccessesAct : Prop :=
  ∀ (s : State) (o : Origin) (d hw : BitVec 64),
    let still (t : State) : Prop := t.rooms = s.rooms ∧ t.mem = s.mem ∧ t.wings = s.wings
    (PortDue s o [rMgmtWrite] →
      (∃ t, exec (.mgmtRegWrite o (devAddr (thrAddr 0x100)) d hw) s = .next t ∧ still t ∧ t.flt = s.flt ∧
        t.job = { s.job with miss := (s.job.miss && !bit d 0) || bit hw 0
                             overrun := (s.job.overrun && !bit d 1) || bit hw 1 }) ∧
      (∃ t, exec (.mgmtRegWrite o (devAddr (thrAddr 0x140)) d hw) s = .next t ∧ still t ∧ t.job = s.job ∧
        t.thr.clk = s.thr.clk ∧ t.thr.guest = s.thr.guest ∧ t.flt = s.flt) ∧
      (∀ r : RoomId, (s.room r).on = true → r.val < s.enabledRooms →
        (∃ t, exec (.mgmtRegWrite o (devAddr (roomAddr r 0x7C0)) d hw) s = .next t ∧ t.mem = s.mem ∧ t.job = s.job ∧
          t.room r = { s.room r with pan := { (s.room r).pan with gap := d.extractLsb' 0 8 } } ∧
          ∀ k, k ≠ r → t.room k = s.room k) ∧
        (∃ t, exec (.traceCtlWrite o r d) s = .next t ∧ t.mem = s.mem ∧ t.job = s.job ∧
          t.room r = { s.room r with trace := { (s.room r).trace with
            pending := some (((s.room r).trace.ctl &&& 0xFF8000F8#64) ||| (d &&& 0xFFFFFFFF007FFF07#64)) } } ∧
          ∀ k, k ≠ r → t.room k = s.room k))) ∧
    (PortDue s o [] → s.may o rMgmtWrite = false → ∀ addr, addr ∈ [thrAddr 0x100, thrAddr 0x480, porchAddr 0 0x40] →
      ∃ t rp, exec (.mgmtRegWrite o (devAddr addr) d hw) s = .next t ∧ still t ∧ t.job = s.job ∧ t.fab = s.fab ∧
        t.smoke = s.smoke ∧ t.flt.queue = s.flt.queue ++ [rp] ∧ rp.code = 0x9004#16) ∧
    (PortDue s o [rMgmtRead, rGbRead] →
      (∀ addr, ∃ t, exec (.mgmtReadCapture o addr) s = .next t ∧
        t = { s with thr := { s.thr with ports := { s.thr.ports with caps := t.thr.ports.caps } } }) ∧
      ∃ t, exec (.mgmtReadCapture o (devAddr (thrAddr 0x300))) s = .next t ∧
        t.capture o = some { origin := o, base := thrAddr 0x300, words := s.loadStatus, lastW := 0 }) ∧
    (let m := d.extractLsb' 0 48
     (PortDue s o [rMgmtWrite] → ∃ t, exec (.faultReadMarkWrite o d) s = .next t ∧ still t ∧ t.job = s.job ∧
        t.flt = { s.flt with
          readMark := if s.flt.readMark ≤ m ∧ m ≤ s.flt.count then m else s.flt.readMark
          overwrite := s.flt.overwrite && !bit d 48
          drop := s.flt.drop && !bit d 49 })) ∧
    (PortDue s o [rMgmtWrite, rDebug] → ∀ on : Bool, bit d 0 = on → s.smoke.debug = !on →
      let i : Instr := if on then .debugEnter o d else .debugLeave o d
      (s.job.js = .configured ∨ s.job.js = .loaded ∨ s.job.js = .done ∨ s.job.js = .faulted →
        ∃ t, exec i s = .next t ∧ still t ∧ t.job = s.job ∧ t.flt = s.flt ∧
          t.smoke = { s.smoke with debug := on, drop := s.smoke.drop && !bit d 1, checkEn := d.extractLsb' 8 8 } ∧
          ∃ e ∈ t.thr.guest.queue, e.event = 0x04) ∧
      (s.job.js = .loading ∨ s.job.js = .running ∨ s.job.js = .draining →
        ∃ t, exec i s = .next t ∧ still t ∧ t.job = s.job ∧ t.smoke = s.smoke ∧ t.thr.guest = s.thr.guest)) ∧
    (PortDue s o [rMgmtWrite] → bit d 0 = true →
      let p : PortId := Fin.ofNat 32 (field d 1 5)
      ∀ b : PortBringUp,
        (s.job.js = .configured → s.mir.enable = false → ((s.porch (porchOf p)).port (portIn p)).enable = false →
          b.trained = true → b.mirror = true → b.rtt ≤ 112 →
          ∃ t, exec (.mirrorEnableWrite o d b) s = .next t ∧ still t ∧ t.job = s.job ∧ t.flt = s.flt ∧
            t.mir.enable = true ∧ t.mir.port = p ∧ t.mirrorPort.live = true ∧ t.mirrorPort.mirror = true ∧
            t.mir.mismatch = (s.mir.mismatch && !bit d 7)) ∧
        (s.job.js ≠ .configured → s.mir.enable = false → ∃ t, exec (.mirrorEnableWrite o d b) s = .next t ∧ still t ∧
          t.job = s.job ∧ t.mir = s.mir ∧ t.fab = s.fab))

/-- R734: a write to READ_MARK takes effect only when its value is at least the present READ_MARK and at most COUNT; any other value is
ignored. The write changes nothing else of the Guestbook, and no Room, memory, job or fault state. -/
def Obligations.ReadMarkMovesForward : Prop :=
  ∀ (s : State) (o : Origin) (d : BitVec 64), PortDue s o [rMgmtWrite, rGbRead, rGbMark] →
    let m := d.extractLsb' 0 48
    let g := s.thr.guest
    ∃ t, exec (.gbReadMarkWrite o d) s = .next t ∧ t.rooms = s.rooms ∧ t.mem = s.mem ∧ t.wings = s.wings ∧ t.job = s.job ∧
      t.flt = s.flt ∧ (g.readMark ≤ m → m ≤ g.count → t.thr.guest = { g with readMark := m }) ∧
      (m < g.readMark ∨ g.count < m → t.thr.guest = g)

/-- R787: words 0 and 1 of PORCH_COLL_ENTRY are held in a staging buffer and do not change the collective table when written; a write of word 2
sets the context selector, writes the staged entry into the selected context under R636 when both words have been staged since the last write of word 2, and empties the staging buffer. -/
def Obligations.CollectiveEntryIsStaged : Prop :=
  ∀ (s : State) (o : Origin) (p : PorchId) (d : BitVec 64), PortDue s o [rMgmtWrite, rRankMap] → bit s.thr.pwr.porch p.val = true →
    let x := s.porch p
    let still (t : State) : Prop := t.rooms = s.rooms ∧ t.mem = s.mem ∧ t.wings = s.wings ∧ t.job = s.job ∧ t.flt = s.flt
    let emptied (t : State) : Prop := still t ∧ (t.porch p).stage0 = none ∧ (t.porch p).stage1 = none ∧
      (t.porch p).collSel = d.extractLsb' 0 4
    (∃ t, exec (.collEntryStage o p false d) s = .next t ∧ still t ∧ t.porch p = { x with stage0 := some d }) ∧
    (∃ t, exec (.collEntryStage o p true d) s = .next t ∧ still t ∧ t.porch p = { x with stage1 := some d }) ∧
    (∀ a b, x.stage0 = some a → x.stage1 = some b →
      let e := BitVec.ofNat 128 (a.toNat + 2 ^ 64 * b.toNat)
      (s.mapWritable = true → x.ctxBad e = false →
        ∃ t, exec (.collEntryCommit o p d) s = .next t ∧ emptied t ∧
          ∀ c, c < 16 → t.ctxOf p c = if c = field d 0 4 then { s.ctxOf p c with entry := e } else s.ctxOf p c) ∧
      (s.mapWritable = false ∨ x.ctxBad e = true →
        ∃ t, exec (.collEntryCommit o p d) s = .next t ∧ emptied t ∧ (t.porch p).coll = x.coll)) ∧
    (x.stage0 = none ∨ x.stage1 = none →
      ∃ t, exec (.collEntryCommit o p d) s = .next t ∧ emptied t ∧ (t.porch p).coll = x.coll)

/-- R587, R591, R636, R644, R670 to R672, R788: a committed collective entry, the rank table and its configuration are written in both
Porches, as a part of one rank table (assumption log 30), while the map is open; the host configuration arms the slots' monitors when it is enabled with a layout that R671 allows, and disarms them when it is disabled. -/
def Obligations.TablesAndHostConfiguration : Prop :=
  ∀ (s : State) (o : Origin) (d : BitVec 64),
    let still (t : State) : Prop := t.rooms = s.rooms ∧ t.mem = s.mem ∧ t.wings = s.wings ∧ t.job = s.job ∧ t.flt = s.flt
    (∀ p : PorchId, PortDue s o [rMgmtWrite, rRankMap] → bit s.thr.pwr.porch p.val = true →
      let x := s.porch p
      (∀ hi, ∃ t, exec (.collEntryStage o p hi d) s = .next t ∧ still t ∧
        t.porch (otherPorch p) = s.porch (otherPorch p)) ∧
      (∀ a b, x.stage0 = some a → x.stage1 = some b → s.mapWritable = true →
        let e := BitVec.ofNat 128 (a.toNat + 2 ^ 64 * b.toNat)
        x.ctxBad e = false → ∃ t, exec (.collEntryCommit o p d) s = .next t ∧ still t ∧
          ∀ q : PorchId, ∀ c, c < 16 → t.ctxOf q c = if c = field d 0 4 then { s.ctxOf q c with entry := e } else s.ctxOf q c) ∧
      (let i := field d 0 12
       (s.mapWritable = true → (∀ q, swf (s.porch q).entries = true) →
         ∃ t, exec (.rankEntryWrite o p d) s = .next t ∧ still t ∧ (t.porch p).entryIdx.toNat = i ∧ ∀ q : PorchId,
           (t.porch q).entry i = setField (d &&& 0x1FFFFFF0000#64) 41 1 (b2n (bit ((s.porch q).entry i) 41)) ∧
             (∀ k, k ≠ i → (t.porch q).entry k = (s.porch q).entry k)) ∧
       (s.mapWritable = false → ∃ t, exec (.rankEntryWrite o p d) s = .next t ∧ still t ∧
         (t.porch p).entryIdx.toNat = i ∧ ∀ q : PorchId, (t.porch q).entries = (s.porch q).entries)) ∧
      (s.mapWritable = true →
        (∃ t, exec (.rankCfgWrite o p false d) s = .next t ∧ still t ∧ ∀ q : PorchId, (t.porch q).cfg =
          setField (s.porch q).cfg 0 64
            ((x.cfg.extractLsb' 0 64 &&& 0xE000000#64) ||| (d &&& 0xFFFFFFFFF1FFFFFF#64)).toNat) ∧
        (∃ t, exec (.rankCfgWrite o p true d) s = .next t ∧ still t ∧ ∀ q : PorchId,
          (t.porch q).cfg = setField (s.porch q).cfg 64 5 (field d 0 5))) ∧
      (s.mapWritable = false → ∀ hi, ∃ t, exec (.rankCfgWrite o p hi d) s = .next t ∧ still t ∧
        ∀ q : PorchId, (t.porch q).cfg = (s.porch q).cfg)) ∧
    (PortDue s o [rMgmtWrite] → s.thr.pwr.palbo = true →
      (s.job.js ≠ .loading → s.job.js ≠ .loaded → s.job.js ≠ .running → s.job.js ≠ .draining →
        (bit d 0 = true → bit s.pal.cfg 0 = false → hostCfgBad (setField s.pal.cfg 0 48 (field d 0 48)) = false →
          ∃ t, exec (.hostCfgEnable o d) s = .next t ∧ still t ∧ t.pal.enabled = true ∧ bit t.pal.cfg 7 = false ∧
            t.pal.nslot = field d 1 6 + 1 ∧ t.pal.submit = 256 * field d 8 40 ∧
            t.pal.last = Vector.replicate 64 0 ∧ (∀ i, i < t.pal.nslot → bit t.pal.armed i = true) ∧
            (s.pal.fenced = false → t.pal.plate.isSome = true)) ∧
        (bit d 0 = true → bit s.pal.cfg 0 = false → hostCfgBad (setField s.pal.cfg 0 48 (field d 0 48)) = true →
          ∃ t, exec (.hostCfgEnable o d) s = .next t ∧ still t ∧ t.pal.enabled = false ∧ bit t.pal.cfg 7 = true ∧
            t.pal.armed = s.pal.armed) ∧
        (bit d 0 = false → bit s.pal.cfg 0 = true →
          ∃ t, exec (.hostCfgDisable o d) s = .next t ∧ still t ∧ t.pal.enabled = false ∧ t.pal.armed = 0 ∧
            t.pal.plate = none ∧ t.pal.card = none)) ∧
      (s.job.js = .loading ∨ s.job.js = .loaded ∨ s.job.js = .running ∨ s.job.js = .draining →
        ∀ i, i ∈ [Instr.hostCfgEnable o d, Instr.hostCfgDisable o d] →
        ∃ t, exec i s = .next t ∧ still t ∧ t.pal = s.pal))

/-- R782, R783, R793, R794: the board port takes its dynamic address, serves a read or a write of the right length with its response, refuses any other, and returns what it holds;
the test port serves accesses where debug is allowed, and answers 5 while one is in progress. -/
def Obligations.SidePortsAnswer : Prop :=
  ∀ (s : State),
    let p := s.thr.ports
    let answered (t : State) (resp : Nat) (data : BitVec 64) : Prop := t.rooms = s.rooms ∧ t.mem = s.mem ∧
      t.flt = s.flt ∧ t.thr.ports.i3cWait = none ∧ t.thr.ports.i3cResp = BitVec.ofNat 8 resp ∧ t.thr.ports.i3cData = data
    let served (t : State) (resp : Nat) (data : BitVec 64) : Prop := t.rooms = s.rooms ∧ t.mem = s.mem ∧
      t.flt = s.flt ∧ t.thr.ports.testBusy = false ∧ t.thr.ports.testResp = BitVec.ofNat 3 resp ∧
      t.thr.ports.testData = data
    let cleared (d : BitVec 64) : Job := { s.job with miss := s.job.miss && !bit d 0, overrun := s.job.overrun && !bit d 1 }
    (p.i3cDyn = none → ∀ dyn, exec (.i3cSetdasa 0x2E dyn) s =
        .next { s with thr := { s.thr with ports := { p with i3cDyn := some dyn } } } ∧
      exec (.i3cEntdaa dyn) s = .next { s with thr := { s.thr with ports := { p with i3cDyn := some dyn } } } ∧
      ∀ other, other ≠ 0x2E#7 → exec (.i3cSetdasa other dyn) s = .next s) ∧
    (∀ a, p.i3cDyn = some a →
      (∀ other dyn, exec (.i3cSetdasa other dyn) s = .next s ∧ exec (.i3cEntdaa dyn) s = .next s) ∧
      (∀ b : Bytes, (b.length ≠ 7 → exec (.i3cReadRequest b) s =
          .next { s with thr := { s.thr with ports := { p with i3cResp := 5, i3cData := 0 } } }) ∧
        (b.length ≠ 15 → exec (.i3cWriteRequest b) s =
          .next { s with thr := { s.thr with ports := { p with i3cResp := 5, i3cData := 0 } } })) ∧
      (s.gbRoom = true → s.may .board rMgmtRead = true →
        ∃ t, exec (.i3cReadRequest (1 :: leBytes 6 (thrAddr 0x40))) s = .next t ∧ answered t 0 s.job.tick ∧
          t.job = s.job) ∧
      (s.gbRoom = true → s.preBoot = false → s.may .board rMgmtWrite = true → ∀ d : BitVec 64,
        ∃ t, exec (.i3cWriteRequest (2 :: leBytes 6 (thrAddr 0x100) ++ leBytes 8 d.toNat)) s = .next t ∧
          answered t 0 0 ∧ t.job = cleared d) ∧
      exec .i3cPrivateRead s = .next { s with thr := { s.thr with ports := { p with
        i3cOut := if p.i3cWait.isSome then [] else p.i3cResp :: leBytes 8 p.i3cData.toNat } } }) ∧
    (s.debugAllow = true → p.testBusy = false → s.gbRoom = true → s.preBoot = false →
      (s.may .debug rMgmtRead = true →
        ∃ t, exec (.testMgmtRead (devAddr (thrAddr 0x40))) s = .next t ∧ served t 0 s.job.tick ∧ t.job = s.job) ∧
      (s.may .debug rMgmtWrite = true → ∀ d,
        ∃ t, exec (.testMgmtWrite (devAddr (thrAddr 0x100)) d) s = .next t ∧ served t 0 d ∧ t.job = cleared d)) ∧
    (∀ i, (∃ a, i = Instr.testMgmtRead a) ∨ (∃ a d, i = Instr.testMgmtWrite a d) →
      (s.debugAllow = false → exec i s = .next s) ∧
      (s.debugAllow = true → p.testBusy = true →
        exec i s = .next { s with thr := { s.thr with ports := { p with testResp := 5 } } }))

/-! ## The logs -/

/-- R724, R727, R730, R732, R733, R740 to R750, R771: the oldest report is logged, coalesced with a repeat or dropped, and a class 1 or 2 report makes a running job FAULTED; the oldest event of the Guestbook is
stored under its number and chained to all before it, at most once in 16 rc; a Smoke record takes the next place of its log. -/
def Obligations.LogsGrow : Prop :=
  ∀ (s : State),
    (∀ rp rest, s.flt.queue = rp :: rest → swf s.flt.log = true → s.job.js ≠ .loading →
      let k := s.flt.count.toNat + 1
      (s.repeats rp = false → rp.lost = false →
        ∃ t, exec .faultReportArrive s = .next t ∧ t.mem = s.mem ∧ t.flt.queue = rest ∧ t.flt.count = s.flt.count + 1 ∧
          field (sget t.flt.log (k % 1024)) 48 16 = rp.code.toNat ∧
          field (sget t.flt.log (k % 1024)) 224 7 = rp.lroom.toNat ∧
          field (sget t.flt.log (k % 1024)) 240 16 = rp.tag.toNat ∧
          (∀ i, i ≠ k % 1024 → sget t.flt.log i = sget s.flt.log i) ∧
          t.flt.lastCode = (if rp.cls = 3 then s.flt.lastCode else rp.code) ∧
          t.flt.jobCode = (if rp.cls = 3 then s.flt.jobCode else rp.code) ∧
          (rp.cls = 0 ∨ rp.cls = 3 → t.rooms = s.rooms ∧ t.job = s.job ∧ t.flt.held = s.flt.held) ∧
          (rp.cls = 1 ∨ rp.cls = 2 → rp.code ≠ 0x700E#16 → s.job.js = .running →
            t.job.js = .faulted ∧ t.flt.held = (s.flt.held || rp.cls == 2) ∧
              ∀ r, (s.room r).on = true → (t.room r).seq.issuing = false ∧ (t.room r).pan = (s.room r).pan)) ∧
      (s.repeats rp = true → rp.cls = 0 →
        ∃ t, exec .faultReportArrive s = .next t ∧ t.rooms = s.rooms ∧ t.mem = s.mem ∧ t.job = s.job ∧
          t.flt.queue = rest ∧ t.flt.count = s.flt.count ∧
          sget t.flt.log (s.flt.count.toNat % 1024) = (let last := sget s.flt.log (s.flt.count.toNat % 1024)
            setField last 256 16 (min (field last 256 16 + 1) 0xFFFF)))  ∧
      (s.repeats rp = false → rp.lost = true → rp.cls = 0 →
        ∃ t, exec .faultReportArrive s = .next t ∧ t.rooms = s.rooms ∧ t.job = s.job ∧ t.flt.queue = rest ∧
          t.flt.count = s.flt.count ∧ t.flt.log = s.flt.log ∧ t.flt.dropped = satAdd s.flt.dropped 1 ∧
          t.flt.drop = true)) ∧
    (let g := s.thr.guest
     let k := g.count.toNat + 1
     let still (t : State) : Prop := t.rooms = s.rooms ∧ t.mem = s.mem ∧ t.job = s.job ∧ t.pal = s.pal
     (g.booted = false ∨ s.rc < g.nextAt → exec .guestbookAppend s = .next s) ∧
     (∀ e rest, g.booted = true → g.nextAt ≤ s.rc → g.queue = e :: rest → e.parts = 1 → e.event ≠ 0x0F →
       let rcd := e.record k 0
       let after : Guest := { g with
         queue := rest, nextAt := s.rc + 16, count := g.count + 1
         head := Config.sha3 (leBytes 64 g.head.toNat ++ leBytes 64 rcd.toNat)
         recs := sput g.recs (k % 4096) rcd
         hashes := sput g.hashes (k % 4096) (Config.sha3 (leBytes 64 g.head.toNat ++ leBytes 64 rcd.toNat)) }
       ((k ≤ 4096 → ∃ t, exec .guestbookAppend s = .next t ∧ still t ∧ t.flt = s.flt ∧
           t.thr.guest = { after with oldest := 1 }) ∧
         (4096 < k → k - 4096 ≤ g.readMark.toNat → ∃ t, exec .guestbookAppend s = .next t ∧ still t ∧ t.flt = s.flt ∧
           t.thr.guest = { after with oldest := BitVec.ofNat 48 (k - 4095), anchor := sget g.hashes (k % 4096) }) ∧
         (4096 < k → g.readMark.toNat < k - 4096 → ∃ t rp, exec .guestbookAppend s = .next t ∧ still t ∧
           t.flt.queue = s.flt.queue ++ [rp] ∧ rp.code = 0x9005#16 ∧
           t.thr.guest = { after with
             oldest := BitVec.ofNat 48 (k - 4095), anchor := sget g.hashes (k % 4096), overwrite := true
             unreadLost := satAdd g.unreadLost 1 })))) ∧
    (∀ q rest, s.smoke.queue = q :: rest → exec .smokeLogAppend s = .next { s with smoke := { s.smoke with
      queue := rest, log := sput s.smoke.log (s.smoke.count.toNat % 2048) q, count := satAdd s.smoke.count 1 } })

/-! ## Mirror mode -/

/-- R761 to R767: a Room's window closes into a record that is sent and kept until the twin's arrives; equal records count as matched, the first unequal ones set STOP_TICK two ticks ahead; the later STOP_TICK of both twins counts; the log exchange
finds the first entry that differs; an outage of the port of LINK_LOST_RC raises MIRROR_LINK_LOST. -/
def Obligations.MirrorCompares : Prop :=
  ∀ (s : State),
    let still (t : State) : Prop := t.mem = s.mem ∧ t.job = s.job
    (s.mir.enable = true →
      (∀ r : RoomId, s.job.js = .running → (s.room r).on = true → s.windowOver r = true →
        let x := (s.room r).mirror
        let m : MirrorRec :=
          { stick := s.job.stick, w := BitVec.ofNat 16 x.win, lroom := BitVec.ofNat 7 r.val, lines := x.lines,
            crc := x.crc ^^^ BitVec.allOnes 64, tick := s.job.tick }
        (∀ y ∈ s.mir.twin, y.stick ≠ m.stick ∨ y.w ≠ m.w ∨ y.lroom ≠ m.lroom) → s.mir.own.length < 8192 →
        exec (.mirrorWindowClose r) s = .next { s.setRoom r { s.room r with
            mirror := { x with win := x.win + 1, lines := 0, crc := BitVec.allOnes 64 } } with
          mir := { s.mir with sent := s.mir.sent ++ [m], own := s.mir.own ++ [m] } }) ∧
      (∀ m x : MirrorRec,
        let same (y : MirrorRec) : Bool := y.stick == m.stick && y.w == m.w && y.lroom == m.lroom
        s.mir.own.find? same = some x →
        (x.lines = m.lines → x.crc = m.crc → exec (.mirrorRecordReceive m) s = .next { s with mir := { s.mir with
          twinTick := m.tick, own := delFirst same s.mir.own, matched := satAdd s.mir.matched 1 } }) ∧
        ((x.lines ≠ m.lines ∨ x.crc ≠ m.crc) → s.mir.stopTick = 0 →
          let st := BitVec.ofNat 64 (max s.job.tick.toNat m.tick.toNat + 2)
          exec (.mirrorRecordReceive m) s = .next { s with mir := { s.mir with
            twinTick := m.tick, own := delFirst same s.mir.own, mismatch := true, stopTick := st, stopSent := some st
            bad := some (x, m) } })) ∧
      (∀ m : MirrorRec, (∀ y ∈ s.mir.own, y.stick ≠ m.stick ∨ y.w ≠ m.w ∨ y.lroom ≠ m.lroom) →
        (s.mir.twin.length < 8192 → exec (.mirrorRecordReceive m) s =
          .next { s with mir := { s.mir with twinTick := m.tick, twin := s.mir.twin ++ [m] } }) ∧
        (8192 ≤ s.mir.twin.length → ∃ t rp, exec (.mirrorRecordReceive m) s = .next t ∧ still t ∧
          t.mir = { s.mir with twinTick := m.tick, dropped := satAdd s.mir.dropped 1, lag := true } ∧
          t.flt.queue = s.flt.queue ++ [rp] ∧ rp.code = 0xA003#16)) ∧
      (∀ st, exec (.mirrorStopTickReceive st) s = .next { s with mir := { s.mir with
        mismatch := true, stopTick := BitVec.ofNat 64 (max s.mir.stopTick.toNat st.toNat) } }) ∧
      (∀ n, s.mirrorPort.live = false → s.mirrorPort.lost = false → s.mirrorPort.downSince + s.linkLost ≤ s.rc →
        ∃ t rp, exec (.mirrorLinkLost n) s = .next t ∧ still t ∧ t.rooms = s.rooms ∧ t.mirrorPort.lost = true ∧
          t.flt.queue = s.flt.queue ++ [rp] ∧ rp.code = 0xA002#16 ∧ rp.cls = 1#2 ∧
          rp.body = [BitVec.ofNat 64 s.mir.port.val, BitVec.ofNat 64 n])) ∧
    (∀ (twin : List MirrorLogEntry) (whole : Bool) (own y : MirrorRec), s.mir.bad = some (own, y) →
      let log := (s.room (Fin.ofNat 96 own.lroom.toNat)).mirror.log
      let mine := (log.filter fun e => e.1 == own.stick && e.2.1 == own.w.toNat).map (·.2.2)
      ((whole = false ∨ mine.length ≠ own.lines.toNat) →
        exec (.mirrorLogExchange twin whole) s = .next { s with mir := { s.mir with
          located := false, index := 0, tag := 0, scyc := 0 } }) ∧
      (∀ i e, whole = true → mine.length = own.lines.toNat → mine[i]? = some e → twin[i]? ≠ some e →
        (∀ j, j < i → mine[j]? = twin[j]?) →
        ∃ t, exec (.mirrorLogExchange twin whole) s = .next t ∧ t = { s with mir := t.mir } ∧ t.mir.located = true ∧
          t.mir.index = i ∧ t.mir.tag = e.tag ∧
          t.mir.scyc = BitVec.ofNat 32 (1024 * own.w.toNat + e.offset.toNat) ∧
          (∀ f, twin[i]? = some f → t.mir.twinTag = f.tag)))

/-! ## Power, boot and the clocks -/

/-- R114, R123, R466, R681, R701 to R703, R711, R739, R827, R830 to R833: with an image in use and every rail good a boot switches every domain on, with HBM reading as zero and the Wing clocks at BOOT_M, and ends in CONFIGURED, or FAULTED when
it is held; it waits for a rail that is not good; without an image it ends in FAULTED with every domain off; PORST# held low for 10 rc, a junction at 110 degrees and the loss of always-on power take the domains and what they held. -/
def Obligations.PowerComesAndGoes : Prop :=
  ∀ (s : State),
    let ends (t : State) : Prop := (t.job.js = .configured ∨ t.job.js = .faulted) ∧ t.thr.boot.parked = none ∧
      (∀ w : WingId, (t.wing w).m = t.bootM ∧ (t.wing w).clockOn = true) ∧
      ∀ r : RoomId, (t.room r).on = decide (r.val < t.enabledRooms)
    let dark (t : State) : Prop := (∀ r : RoomId, t.room r = Room.reset false) ∧ t.mem = Mem.reset ∧ t.fab = Fab.reset ∧
      t.pal = Palbo.reset ∧ t.thr.pwr.cellar = 0 ∧ t.thr.pwr.porch = 0 ∧ t.thr.pwr.palbo = false ∧ t.thr.pwr.spine = 0
    (∀ b, s.thr.pwr.porst = true → exec (.powerUp b) s = .next s) ∧
    (∀ b, s.thr.pwr.porst = false → (cfgSelect b.nvmA b.nvmB).use = none →
      ∃ t, exec (.powerUp b) s = .next t ∧ t.job.js = .faulted ∧ t.thr.boot.valid = false ∧ t.thr.pwr.porst = true ∧
        t.thr.pwr.porch = 0 ∧ t.thr.pwr.cellar = 0 ∧ t.flt.lastCode = 0x9002#16) ∧
    (∀ b u, s.thr.pwr.porst = false → (cfgSelect b.nvmA b.nvmB).use = some u →
      (b.railsOk = 0xF → b.wingsOk = true →
        ∃ t, exec (.powerUp b) s = .next t ∧ ends t ∧ t.thr.boot.img = u.2.img ∧ t.thr.boot.valid = true ∧
          t.thr.pwr.porst = true ∧ t.thr.pwr.porch = 3 ∧ t.thr.pwr.cellar = 0xF ∧ t.thr.pwr.spine = 0xF ∧
          t.mem.hbm = [] ∧ t.job.tick = 0 ∧ t.job.stick = 0) ∧
      (bit b.railsOk 0 = false →
        ∃ t, exec (.powerUp b) s = .next t ∧ t.job.js = .selfTest ∧ t.thr.boot.parked = some b ∧ t.thr.boot.step = 0 ∧
          t.thr.boot.img = u.2.img ∧ t.thr.pwr.porch = 0 ∧ t.thr.pwr.cellar = 0)) ∧
    (∀ b, s.thr.boot.parked = some b → s.thr.boot.step = 4 → s.job.js = .selfTest →
      ∃ t, exec .bootRailWaitDone s = .next t ∧ ends t ∧ t.thr.boot.img = s.thr.boot.img) ∧
    (∀ sel level, s.thr.boot.parked = none ∨ level = false → exec (.railGoodChange sel level) s =
      .next { s with thr := { s.thr with pwr := { s.thr.pwr with rg := setField s.thr.pwr.rg sel.val 1 (b2n level) } } }) ∧
    (∀ low, (low < 10 → exec (.powerDown low) s = .next s) ∧
      (10 ≤ low → s.thr.pwr.porst = true →
        ∃ t, exec (.powerDown low) s = .next t ∧ dark t ∧ t.job = { Job.reset with js := .off } ∧
          t.thr.pwr.porst = false ∧ t.thr.pwr.codes = Vector.replicate 8 0 ∧ t.thr.guest = s.thr.guest ∧
          t.flt = s.flt)) ∧
    (∀ sensor temp, (temp.toInt < 110 * 16 → exec (.thermTrip sensor temp) s = .next s) ∧
      (110 * 16 ≤ temp.toInt → s.thr.pwr.thermTrip = false → s.thr.pwr.porst = true →
        ∃ t rp, exec (.thermTrip sensor temp) s = .next t ∧ dark t ∧ t.thr.pwr.thermTrip = true ∧
          t.flt.queue = s.flt.queue ++ [rp] ∧ rp.code = 0x1005#16 ∧ rp.cls = 2#2 ∧
          rp.body = [sensor.zeroExtend 64, temp.zeroExtend 64])) ∧
    (∃ t, exec .alwaysOnPowerLoss s = .next t ∧ dark t ∧ t.job = { Job.reset with js := .off } ∧
      t.thr.boot = Boot.reset ∧ t.thr.guest = Guest.reset ∧ t.flt = Faults.reset ∧ t.tabs = Tables.reset)

/-- R88, R90, R93, R102 to R110, R119 to R122, R681: the loss of the reference holds every PLL and puts the package out of step, its return lets it pull in, and 100,000 rc of holdover stop the Wings; the throttle takes the duty
of the highest entry reached; a droop stretches one period unless the last was stretched, and after 512 asks for a stop-cycle; a drained job is DONE. -/
def Obligations.ReferenceAndThrottle : Prop :=
  ∀ (s : State),
    let k := s.thr.clk
    let still (t : State) : Prop := t.rooms = s.rooms ∧ t.mem = s.mem ∧ t.job = s.job
    (k.refOk = true → ∃ t rp, exec .refLoss s = .next t ∧ still t ∧
      t.thr.clk = { k with refOk := false, refLoss := true, outOfStep := true, holdover := true, holdRc := 0
                           losses := satAdd k.losses 1 } ∧
      t.thr.stw.lastSop = 7#8 ∧ (∀ w, t.wing w = { s.wing w with holdover := (s.wing w).lock }) ∧
      t.flt.queue = s.flt.queue ++ [rp] ∧ rp.code = 0x1003#16 ∧ rp.cls = 0#2) ∧
    (k.refOk = false → k.holdover = true → ∃ t, exec .refReturn s = .next t ∧ still t ∧ t.flt = s.flt ∧
      t.thr.clk = { k with refOk := true, holdover := false } ∧
      ∀ w, t.wing w = { s.wing w with holdover := false }) ∧
    (k.holdover = true → k.stopAll = false →
      (k.holdRc.toNat < 100000 → exec .holdoverExpired s = .next s) ∧
      (100000 ≤ k.holdRc.toNat → ∃ t rp, exec .holdoverExpired s = .next t ∧ still t ∧ t.wings = s.wings ∧
        t.thr.clk = { k with expired := true, stopAll := true } ∧ t.flt.queue = s.flt.queue ++ [rp] ∧
        rp.code = 0x1004#16 ∧ rp.cls = 1#2)) ∧
    (∀ n, k.refOk = true → exec (.oscCalibrate n) s =
      .next { s with thr := { s.thr with clk := { k with oscNum := n } } }) ∧
    (∀ (w : WingId) (temp : BitVec 16) (mw : Nat), bit s.thr.pwr.spine w.val = true →
      let img := s.thr.boot.img
      let g := s.wing w
      ∃ n dt dp, exec (.throttleEval w temp mw) s = .next (s.setWing w { g with
          entryT := n, dutyT := dt, dutyP := dp, tempMax := temp }) ∧
        (g.entryT = 0 → (∀ e ∈ img.therm, temp.toInt < (field e 0 12 : Int)) → n = 0 ∧ dt = 0#8) ∧
        (∀ l e, img.therm = l ++ [e] → (field e 0 12 : Int) ≤ temp.toInt → g.entryT ≤ img.therm.length →
          n = img.therm.length ∧ dt = BitVec.ofNat 8 (field e 12 8)) ∧
        (∀ l e m, img.therm = l ++ [e] ++ m → g.entryT = l.length + 1 → (field e 0 12 : Int) < temp.toInt + 32 →
          (∀ x ∈ m, temp.toInt < (field x 0 12 : Int)) → n = g.entryT ∧ dt = BitVec.ofNat 8 (field e 12 8)) ∧
        (mw < 1000 * field (s.dvfsOf g.m) 24 16 → dp = 0#8)) ∧
    (∀ w : WingId, (s.wing w).clockOn = true →
      let g := s.wing w
      (g.active = true → 512 ≤ g.strTick →
        exec (.droopDetect w) s = .next (s.setWing w { g with stopNext := true, strLimit := true })) ∧
      ((g.active = false ∨ g.strTick < 512) → (g.curStr = true ∨ g.prevStr = true) → exec (.droopDetect w) s = .next s) ∧
      ((g.active = false ∨ g.strTick < 512) → g.curStr = false → g.prevStr = false →
        exec (.droopDetect w) s = .next (s.setWing w { g with
          curStr := true, nextEdge := g.nextEdge + g.period / 2
          strTick := if s.advancing w = true ∧ g.active = true then g.strTick + 1 else g.strTick
          strEvt := if s.advancing w = true ∧ g.active = true ∧ g.done = false then satAdd g.strEvt 1 else g.strEvt }))) ∧
    (s.job.js = .draining →
      (s.drained = true → ∃ t, exec .jobDone s = .next t ∧ t.rooms = s.rooms ∧ t.mem = s.mem ∧ t.job.js = .done ∧
        t.job.tick = s.job.tick) ∧
      (s.drained = false → exec .jobDone s = .next s))

/-! ## Ticks -/

/-- R45, R46, R61 to R64, R306, R631, R807, R809: a job's first boundary sets both tick counters to T0 and starts the job in its mode; each boundary advances THRESH_TICK and places the next; with every Wing complete the next schedule tick begins, unless a command
names it or the job is frozen, and in real-time mode an unfinished one is a miss. -/
def Obligations.BoundariesTurnTheTick : Prop :=
  ∀ (s : State), s.mir.enable = false → s.thr.stw.peer = none →
    (∀ w, (s.wing w).clockOn = true → (s.wing w).nextEdge = s.now + (s.wing w).period) →
    let j := s.job
    (j.js = .loaded → j.startSet = true →
      (j.startRc ≤ s.thr.clk.jclk → s.thr.clk.residual.toInt.natAbs ≤ 19 →
        ∃ t, exec .jobFirstBoundary s = .next t ∧ t.mem = s.mem ∧ t.job.js = .running ∧ t.job.tick = j.t0 ∧
          t.job.stick = j.t0 ∧ t.job.rt = j.startRt ∧ t.job.seed = j.seed ∧ t.job.lastBound = s.rc ∧
          t.job.bound = s.rc + s.tickRc ∧ t.job.ticking = true ∧ t.job.missCount = 0 ∧ t.job.startSet = false) ∧
      (s.thr.clk.jclk < j.startRc ∨ 19 < s.thr.clk.residual.toInt.natAbs → exec .jobFirstBoundary s = .next s)) ∧
    (s.nextBound = none → exec .tickBoundary s = .next s) ∧
    (∀ b, s.nextBound = some b →
      (s.rc < b → exec .tickBoundary s = .next s) ∧
      (b ≤ s.rc → s.thr.clk.tickSet = none → s.thr.clk.stopAll = false → s.alignPeriod = 0 →
        ∃ t, exec .tickBoundary s = .next t ∧ t.mem.hbm = s.mem.hbm ∧ t.job.tick = j.tick + 1 ∧ t.job.lastBound = b ∧
          t.job.bound = b + s.tickRc ∧
          (j.js ≠ .running ∨ s.allComplete = false → t.job.js = j.js ∧ t.job.stick = j.stick) ∧
          (j.js = .running → s.allComplete = true → j.pend = 0 →
            t.job.js = .running ∧ t.job.stick = if j.frozen then j.stick else j.stick + 1) ∧
          (j.js = .running → s.allComplete = true → j.pend = 1 → (j.pendStick ≤ j.stick + 1 ∨ j.frozen = true) →
            t.job.js = .draining ∧ t.job.stick = j.stick ∧ t.job.pend = 0) ∧
          (j.js = .running → s.allComplete = true → j.pend = 2 → j.pendStick ≤ j.stick + 1 → j.frozen = false →
            t.job.js = .running ∧ t.job.stick = j.stick ∧ t.job.frozen = true ∧ t.job.pend = 0) ∧
          (j.js = .running → j.rt = true → j.frozen = false → s.allComplete = false → j.missNow = false →
            t.job.miss = true ∧ t.job.missCount = satAdd j.missCount 1)))

/-- R56 to R60, R77, R95, R99, R100, R354, R356, R357: a Wing whose Rooms are all idle completes its tick in that gc, or begins a declared frequency change; its clock restarts at the new ratio 400 rc after the gating edge, unless the PLL or the rail is late, and stays
stopped after 2,000 rc; the end of a freeze charges its gc by the bits of the arrival that ended it, and a freeze at the limit is reported for each Room. -/
def Obligations.WingsCompleteStopAndFreeze : Prop :=
  ∀ (s : State) (w : WingId),
    let g := s.wing w
    let still (t : State) : Prop := t.mem = s.mem ∧ ∀ v, v ≠ w → t.wing v = s.wing v
    (g.active = true → g.done = false → g.fstop = none → s.advancing w = true → g.frzOn = false →
      (∀ r ∈ roomsOf w, (s.room r).on = true → s.roomIdle r = true) →
      (g.newM = 0 → ∃ t, exec (.wingTickComplete w) s = .next t ∧ still t ∧ t.rooms = s.rooms ∧ t.flt = s.flt ∧
        (t.wing w).done = true ∧ (t.wing w).doneGc = g.periods - g.per0 + 1 ∧ (t.wing w).doneTime = g.nextEdge ∧
        (t.wing w).acyc = g.acyc) ∧
      (g.newM ≠ 0 → (∀ r ∈ roomsOf w, (s.room r).pend = [] ∧ (s.room r).runs = []) →
        ∃ t f, exec (.wingTickComplete w) s = .next t ∧ t.job = s.job ∧ (t.wing w).fstop = some f ∧
          f.oldM = g.m ∧ f.newM = g.newM ∧ f.gateAt = cdiv g.nextEdge RCQ ∧ (t.wing w).done = false)) ∧
    (∀ f, g.clockOn = false → g.fstop = some f → g.halted = false →
      (∀ locked, g.holdover = false → f.gateAt + 400 ≤ s.rc → s.now = s.rc * RCQ →
        (locked = false ∨ bit s.thr.pwr.rg w.val = false →
          exec (.wingClockRestart w locked) s = .next (s.setWing w { g with relSlow := true, lock := locked })) ∧
        (locked = true → bit s.thr.pwr.rg w.val = true → g.active = false → g.stopPend = false → g.corr = [] →
          (∀ r ∈ roomsOf w, (s.room r).pend = [] ∧ (s.room r).frz = [] ∧ (s.room r).runs = [] ∧ (s.room r).wends = []) →
          ∃ t, exec (.wingClockRestart w locked) s = .next t ∧ still t ∧ t.job = s.job ∧ t.flt = s.flt ∧
            (t.wing w).m = f.newM ∧ (t.wing w).period = RCQ / f.newM ∧ (t.wing w).clockOn = true ∧
            (t.wing w).lock = true ∧ (t.wing w).fstop = none ∧ (t.wing w).nextEdge = s.now + RCQ / f.newM ∧
            (t.wing w).relSlow = (g.relSlow || decide (400 < s.rc - f.gateAt)))) ∧
      (s.rc < f.gateAt + 2000 → exec (.wingRelockFail w) s = .next s) ∧
      (f.gateAt + 2000 ≤ s.rc → ∃ rp, exec (.wingRelockFail w) s = .next { s.setWing w { g with halted := true } with
          flt := { s.flt with queue := s.flt.queue ++ [rp] } } ∧ rp.code = 0x1002#16 ∧ rp.cls = 2#2)) ∧
    (g.frzOn = true → g.held = false → s.frozenW w = false → g.active = true → g.done = false → g.frzRead = none →
      ∃ t, exec (.wingFreezeEnd w) s = .next t ∧ still t ∧ t.job = s.job ∧ t.flt = s.flt ∧ (t.wing w).frzOn = false ∧
        (t.wing w).frzLen = 0 ∧ (t.wing w).frzRep = false ∧
        (∀ r, wingOf r ≠ w → t.room r = s.room r) ∧
        (let b := g.frzBits.getD 0
         (t.wing w).frRetry = (if bit b 0 then satAdd g.frRetry g.frzLen else g.frRetry) ∧
         (t.wing w).frRefresh = (if !bit b 0 && bit b 1 then satAdd g.frRefresh g.frzLen else g.frRefresh) ∧
         (t.wing w).frOther = (if !bit b 0 && !bit b 1 then satAdd g.frOther g.frzLen else g.frOther))) ∧
    (g.frzOn = true → g.frzRep = false → s.frozenW w = true →
      (s.now < g.frzSince + s.freezeLimit * RCQ → exec (.freezeTimeout w) s = .next s) ∧
      (g.frzSince + s.freezeLimit * RCQ ≤ s.now → ∃ t rps, exec (.freezeTimeout w) s = .next t ∧ t.rooms = s.rooms ∧
        t.mem = s.mem ∧ t.job = s.job ∧ t.wings = (s.setWing w { g with frzRep := true }).wings ∧
        t.flt.queue = s.flt.queue ++ rps ∧
        rps.length = ((roomsOf w).filter fun r => !(s.room r).frz.isEmpty).length ∧
        ∀ rp ∈ rps, rp.code = 0x1103#16 ∧ rp.cls = 1#2))

/-! ## The machine as a whole -/

/-- A step with a command at the front of the queue is that command with the queue's rest; with none, time passes. Every command of the
table ends in a next state; it takes no time, and sends no command (95). -/
def Obligations.StepRunsTheFrontCommand : Prop :=
  (∀ (c : Instr) (s : State) (rest : List Instr), s.pending = c :: rest → step s = exec c { s with pending := rest }) ∧
    (∀ s : State, s.pending = [] → step s = .next (tick s)) ∧
    ∀ (c : Instr) (s : State), ∃ t, exec c s = .next t ∧ t.pending = s.pending ∧ t.now = s.now ∧ t.rc = s.rc

/-- The Reset columns of chapters 02, 03, 13, 15 and 16, the model's CFG fields at zero: what the registers of the Threshold, of the Palbo link and of a Porch read as right
after reset; the clocks are in step, and every memory is in canonical form. -/
def Obligations.ResetValues : Prop :=
  let s := State.reset
  s.pending = [] ∧ s.thrReg 0x000 = some (0x000, [1, 0]) ∧ s.thrReg 0x040 = some (0x040, [0]) ∧
    s.thrReg 0x080 = some (0x080, [0]) ∧ s.thrReg 0x140 = some (0x140, [0]) ∧ s.thrReg 0x180 = some (0x180, [0]) ∧
    s.thrReg 0x1C0 = some (0x1C0, [0]) ∧ s.thrReg 0x200 = some (0x200, [0]) ∧ s.thrReg 0x300 = some (0x300, [0, 0, 0, 0]) ∧
    s.thrReg 0x340 = some (0x340, [0, 0, 0, 0]) ∧ s.thrReg 0x440 = some (0x440, [0, 0, 0, 0]) ∧
    s.thrReg 0x480 = some (0x480, [0xFF00, 0]) ∧ s.thrReg 0x4C0 = some (0x4C0, [0, 0, 0]) ∧
    s.thrReg 0x500 = some (0x500, [0]) ∧ s.thrReg 0x540 = some (0x540, [0, 0]) ∧
    s.palReg 0x40 = some [0] ∧ s.palReg 0x80 = some [0, 0, 0] ∧
    (∀ p : PorchId, s.porchReg p 0xC0 = some [0, 0, 0, 0, 0]) ∧
    (∀ r : RoomId, (s.room r).on = false ∧ (s.room r).pan.mem = [] ∧ (s.room r).queue 0 = []) ∧ s.mem.hbm = [] ∧
    s.inTime ∧ Memory.wf s = true

/-- Every step keeps the reference count of its instant: time never goes back, one step never spans two reference edges, and it
passes only while no command waits. The time base is the model's (assumption log 2). -/
def Obligations.StepKeepsTime : Prop :=
  ∀ (s t : State), s.inTime → step s = .next t →
    t.inTime ∧ s.rc ≤ t.rc ∧ t.rc ≤ s.rc + 1 ∧ (s.pending ≠ [] → t.now = s.now ∧ t.rc = s.rc) ∧
      (s.pending = [] → s.now < t.now ∧ t.pending = [])
end

