-- ==== Sys2Proof/Laws/Due.lean ====
section
/-! SUPPORT. When a command is due, as a computation. -/

namespace Sys2Proof.Laws

open Sys2Proof Sys2Proof.Machine

theorem seqDue_of {s : State} {r : RoomId} {op : Nat} {c : QCmd} {last : Bool} {rest : List SeqCmd}
    (h : ((s.room r).on && s.advancing (wingOf r) && decide ((s.room r).seq.now = { cmd := c, last := last } :: rest) &&
      unitOf c.word == 0 && opcodeOf c.word == op && c.pred && !seqBad op c.word) = true) : SeqDue s r op c last rest := by
  simp only [Bool.and_eq_true, decide_eq_true_eq, beq_iff_eq, Bool.not_eq_true'] at h
  exact ⟨h.1.1.1.1.1.1, h.1.1.1.1.1.2, h.1.1.1.1.2, h.1.1.1.2, h.1.1.2, h.1.2, h.2⟩

theorem unitDue_of {s : State} {r : RoomId} {unit op : Nat} {c : QCmd}
    (h : ((s.room r).on && s.advancing (wingOf r) && decide (((s.room r).queue unit).head? = some c) &&
      unitOf c.word == unit && opcodeOf c.word == op && c.pred) = true) : UnitDue s r unit op c := by
  simp only [Bool.and_eq_true, decide_eq_true_eq, beq_iff_eq] at h
  exact ⟨h.1.1.1.1.1, h.1.1.1.1.2, h.1.1.1.2, h.1.1.2, h.1.2, h.2⟩

theorem dwDue_of {s : State} {r : RoomId} {op : Nat} {c : QCmd}
    (h : ((s.room r).on && (s.wing (wingOf r)).clockOn && !(s.wing (wingOf r)).halted &&
      decide (((s.room r).queue 1).head? = some c) && unitOf c.word == 1 && opcodeOf c.word == op &&
      decide ((s.room r).dwFree ≤ (s.wing (wingOf r)).periods) && c.pred) = true) : DwDue s r op c := by
  simp only [Bool.and_eq_true, decide_eq_true_eq, beq_iff_eq, Bool.not_eq_true'] at h
  obtain ⟨⟨⟨⟨⟨⟨⟨h1, h2⟩, h3⟩, h4⟩, h5⟩, h6⟩, h7⟩, h8⟩ := h
  exact ⟨h1, h2, h3, h4, h5, h6, h7, h8⟩

theorem bundleDue_of {s : State} {r : RoomId} {b : Bundle}
    (h : ((s.room r).on && s.advancing (wingOf r) && (s.room r).seq.issuing && decide ((s.room r).seq.now = []) &&
      decide ((s.room r).prog.bundleAt (s.room r).seq.bptr = b) &&
      decide ((s.room r).seq.lastIssue + (if (s.room r).seq.fresh then 0 else max b.delta 1) ≤ s.cyc r) &&
      !(s.room r).seq.fetchBad (s.room r).prog b && decide (queueFull (s.room r).seq.qdVis b.cmds = none)) = true) :
    BundleDue s r b := by
  simp only [Bool.and_eq_true, decide_eq_true_eq, Bool.not_eq_true'] at h
  obtain ⟨⟨⟨⟨⟨⟨⟨h1, h2⟩, h3⟩, h4⟩, h5⟩, h6⟩, h7⟩, h8⟩ := h
  exact ⟨h1, h2, h3, h4, h5, h6, h7, h8⟩

theorem bundleGood_of {q : Seq} {b : Bundle}
    (h : (!b.bad && (if q.fresh then b.delta == 0 else b.delta != 0) &&
      b.cmds.all (fun c => decide (unitOf c ≤ 6) && (unitOf c != 0 || seqOpOk (opcodeOf c)))) = true) : BundleGood q b := by
  simp only [Bool.and_eq_true, Bool.not_eq_true', List.all_eq_true, decide_eq_true_eq, Bool.or_eq_true, bne_iff_ne] at h
  refine ⟨h.1.1, ?_, fun c hc => ⟨(h.2 c hc).1, fun h0 => ?_⟩⟩
  · have := h.1.2
    split at this <;> simp_all
  · rcases (h.2 c hc).2 with h1 | h1
    · exact absurd h0 h1
    · exact h1

theorem stwDue_of {s : State} {m : StwMsg} {right : Option Nat}
    (h : (s.gbRoom && (s.porch 0).rankOk m.src.toNat && decide (m.src ≠ s.ownRank) &&
      right.toList.all fun r => s.granted 4 m.src.toNat r) = true) : StwDue s m right := by
  simp only [Bool.and_eq_true, decide_eq_true_eq, List.all_eq_true] at h
  exact ⟨h.1.1.1, h.1.1.2, h.1.2, fun r hr => h.2 r (by simpa using hr)⟩

theorem portDue_of {s : State} {o : Origin} {rights : List Nat}
    (h : (s.gbRoom && !s.preBoot && rights.all fun r => s.may o r) = true) : PortDue s o rights := by
  simp only [Bool.and_eq_true, Bool.not_eq_true', List.all_eq_true] at h
  exact ⟨h.1.1, h.1.2, h.2⟩

end Sys2Proof.Laws
end

