-- ==== Sys2Proof/Laws/Memory.lean ====
section
/-! SUPPORT. Sparse tables: reads after writes, and the canonical form that every operation keeps. -/

namespace Sys2Proof.Machine

theorem sget_of_lt {w : Nat} (m : SMap w) (lo k : Nat) (h : swfFrom m lo = true) (hk : k < lo) : sget m k = 0#w := by
  cases m with
  | nil => rfl
  | cons e t =>
    obtain ⟨a, v⟩ := e
    simp only [swfFrom, Bool.and_eq_true, decide_eq_true_eq] at h
    have : a ≠ k := by omega
    have h2 : k < a := by omega
    simp [sget, this, h2]

theorem swfFrom_mono {w : Nat} (m : SMap w) (lo lo' : Nat) (h : swfFrom m lo = true) (hl : lo' ≤ lo) : swfFrom m lo' = true := by
  cases m with
  | nil => rfl
  | cons e t =>
    obtain ⟨a, v⟩ := e
    simp only [swfFrom, Bool.and_eq_true, decide_eq_true_eq] at h ⊢
    exact ⟨⟨by omega, h.1.2⟩, h.2⟩

theorem swfFrom_sput {w : Nat} (m : SMap w) (lo k : Nat) (v : BitVec w) (h : swfFrom m lo = true) (hk : lo ≤ k) :
    swfFrom (sput m k v) lo = true := by
  induction m generalizing lo with
  | nil =>
    unfold sput
    split
    · rfl
    · simp [swfFrom, *]
  | cons e t ih =>
    obtain ⟨a, u⟩ := e
    have h0 := h
    simp only [swfFrom, Bool.and_eq_true, decide_eq_true_eq] at h
    obtain ⟨⟨h1, h2⟩, h3⟩ := h
    simp only [sput]
    split
    · split
      · exact h0
      · rename_i hka hv
        simp only [swfFrom, Bool.and_eq_true, decide_eq_true_eq]
        exact ⟨⟨hk, hv⟩, ⟨by omega, h2⟩, h3⟩
    · split
      · split
        · exact swfFrom_mono t _ _ h3 (by omega)
        · rename_i hka hk2 hv
          simp only [swfFrom, Bool.and_eq_true, decide_eq_true_eq]
          exact ⟨⟨h1, hv⟩, h3⟩
      · simp only [swfFrom, Bool.and_eq_true, decide_eq_true_eq]
        exact ⟨⟨h1, h2⟩, ih (a + 1) h3 (by omega)⟩

/-- A write keeps the canonical form. -/
theorem swf_sput {w : Nat} (m : SMap w) (k : Nat) (v : BitVec w) (h : swf m = true) : swf (sput m k v) = true :=
  swfFrom_sput m 0 k v h (by omega)

theorem sget_sput_from {w : Nat} (m : SMap w) (lo k j : Nat) (v : BitVec w) (h : swfFrom m lo = true) :
    sget (sput m k v) j = if j = k then v else sget m j := by
  induction m generalizing lo with
  | nil =>
    unfold sput
    split
    · by_cases e : j = k <;> simp_all [sget]
    · by_cases e : j = k
      · simp [sget, e]
      · have : k ≠ j := fun x => e x.symm
        simp [sget, e, this]
  | cons e t ih =>
    obtain ⟨a, u⟩ := e
    simp only [swfFrom, Bool.and_eq_true, decide_eq_true_eq] at h
    obtain ⟨⟨h1, h2⟩, h3⟩ := h
    have hlow : ∀ i, i ≤ a → sget t i = 0#w := fun i hi => sget_of_lt t (a + 1) i h3 (by omega)
    simp only [sput]
    split
    · rename_i hka
      split
      · rename_i hv
        by_cases e : j = k
        · subst e
          have : a ≠ j := by omega
          simp [sget, this, hka, hv]
        · simp [e]
      · by_cases e : j = k
        · subst e; simp [sget]
        · have h4 : k ≠ j := fun x => e x.symm
          by_cases h5 : j < k
          · have h6 : a ≠ j := by omega
            have h7 : j < a := by omega
            simp [sget, e, h4, h5, h6, h7]
          · simp [sget, e, h4, h5]
    · split
      · rename_i hka hk2
        subst hk2
        split
        · rename_i hv
          by_cases e : j = k
          · subst e; simp [hlow, hv]
          · have h4 : k ≠ j := fun x => e x.symm
            by_cases h5 : j < k
            · simp [sget, e, h4, h5]; exact hlow j (by omega)
            · simp [sget, e, h4, h5]
        · by_cases e : j = k
          · subst e; simp [sget]
          · have h4 : k ≠ j := fun x => e x.symm
            simp [sget, e, h4]
      · rename_i hka hk2
        by_cases e2 : a = j
        · subst e2
          have : a ≠ k := fun x => hk2 x.symm
          simp [sget, this]
        · by_cases h5 : j < a
          · have : j ≠ k := by omega
            simp [sget, e2, h5, this]
          · simp [sget, e2, h5]
            exact ih (a + 1) h3

/-- A read after a write to the same entry gives what was written. -/
theorem sget_sput_self {w : Nat} (m : SMap w) (k : Nat) (v : BitVec w) (h : swf m = true) : sget (sput m k v) k = v := by
  simp [sget_sput_from m 0 k k v h]

/-- A write leaves every other entry alone. -/
theorem sget_sput_ne {w : Nat} (m : SMap w) (k j : Nat) (v : BitVec w) (h : swf m = true) (hj : j ≠ k) :
    sget (sput m k v) j = sget m j := by
  simp [sget_sput_from m 0 k j v h, hj]

end Sys2Proof.Machine
end

