-- ==== Sys2Proof/Laws/State.lean ====
section
/-! SUPPORT. The accessors and updates of State: what each reads after each. -/

namespace Sys2Proof.Machine

theorem State.modRoom_def (s : State) (r : RoomId) (f : Room → Room) : s.modRoom r f = s.setRoom r (f (s.room r)) := rfl

theorem State.modWing_def (s : State) (w : WingId) (f : Wing → Wing) : s.modWing w f = s.setWing w (f (s.wing w)) := rfl

@[simp] theorem State.setRoom_pending (s : State) (r : RoomId) (x : Room) : (s.setRoom r x).pending = s.pending := rfl
@[simp] theorem State.setRoom_now (s : State) (r : RoomId) (x : Room) : (s.setRoom r x).now = s.now := rfl
@[simp] theorem State.setRoom_rc (s : State) (r : RoomId) (x : Room) : (s.setRoom r x).rc = s.rc := rfl
@[simp] theorem State.setRoom_free (s : State) (r : RoomId) (x : Room) : (s.setRoom r x).free = s.free := rfl
@[simp] theorem State.setRoom_wings (s : State) (r : RoomId) (x : Room) : (s.setRoom r x).wings = s.wings := rfl
@[simp] theorem State.setRoom_tabs (s : State) (r : RoomId) (x : Room) : (s.setRoom r x).tabs = s.tabs := rfl
@[simp] theorem State.setRoom_job (s : State) (r : RoomId) (x : Room) : (s.setRoom r x).job = s.job := rfl
@[simp] theorem State.setRoom_flt (s : State) (r : RoomId) (x : Room) : (s.setRoom r x).flt = s.flt := rfl
@[simp] theorem State.setRoom_smoke (s : State) (r : RoomId) (x : Room) : (s.setRoom r x).smoke = s.smoke := rfl
@[simp] theorem State.setRoom_mir (s : State) (r : RoomId) (x : Room) : (s.setRoom r x).mir = s.mir := rfl
@[simp] theorem State.setRoom_fab (s : State) (r : RoomId) (x : Room) : (s.setRoom r x).fab = s.fab := rfl
@[simp] theorem State.setRoom_mem (s : State) (r : RoomId) (x : Room) : (s.setRoom r x).mem = s.mem := rfl
@[simp] theorem State.setRoom_pal (s : State) (r : RoomId) (x : Room) : (s.setRoom r x).pal = s.pal := rfl
@[simp] theorem State.setRoom_thr (s : State) (r : RoomId) (x : Room) : (s.setRoom r x).thr = s.thr := rfl

@[simp] theorem State.modRoom_pending (s : State) (r : RoomId) (f : Room → Room) : (s.modRoom r f).pending = s.pending := rfl
@[simp] theorem State.modRoom_now (s : State) (r : RoomId) (f : Room → Room) : (s.modRoom r f).now = s.now := rfl
@[simp] theorem State.modRoom_rc (s : State) (r : RoomId) (f : Room → Room) : (s.modRoom r f).rc = s.rc := rfl
@[simp] theorem State.modRoom_free (s : State) (r : RoomId) (f : Room → Room) : (s.modRoom r f).free = s.free := rfl
@[simp] theorem State.modRoom_wings (s : State) (r : RoomId) (f : Room → Room) : (s.modRoom r f).wings = s.wings := rfl
@[simp] theorem State.modRoom_tabs (s : State) (r : RoomId) (f : Room → Room) : (s.modRoom r f).tabs = s.tabs := rfl
@[simp] theorem State.modRoom_job (s : State) (r : RoomId) (f : Room → Room) : (s.modRoom r f).job = s.job := rfl
@[simp] theorem State.modRoom_flt (s : State) (r : RoomId) (f : Room → Room) : (s.modRoom r f).flt = s.flt := rfl
@[simp] theorem State.modRoom_smoke (s : State) (r : RoomId) (f : Room → Room) : (s.modRoom r f).smoke = s.smoke := rfl
@[simp] theorem State.modRoom_mir (s : State) (r : RoomId) (f : Room → Room) : (s.modRoom r f).mir = s.mir := rfl
@[simp] theorem State.modRoom_fab (s : State) (r : RoomId) (f : Room → Room) : (s.modRoom r f).fab = s.fab := rfl
@[simp] theorem State.modRoom_mem (s : State) (r : RoomId) (f : Room → Room) : (s.modRoom r f).mem = s.mem := rfl
@[simp] theorem State.modRoom_pal (s : State) (r : RoomId) (f : Room → Room) : (s.modRoom r f).pal = s.pal := rfl
@[simp] theorem State.modRoom_thr (s : State) (r : RoomId) (f : Room → Room) : (s.modRoom r f).thr = s.thr := rfl

@[simp] theorem State.setWing_pending (s : State) (w : WingId) (x : Wing) : (s.setWing w x).pending = s.pending := rfl
@[simp] theorem State.setWing_now (s : State) (w : WingId) (x : Wing) : (s.setWing w x).now = s.now := rfl
@[simp] theorem State.setWing_rc (s : State) (w : WingId) (x : Wing) : (s.setWing w x).rc = s.rc := rfl
@[simp] theorem State.setWing_free (s : State) (w : WingId) (x : Wing) : (s.setWing w x).free = s.free := rfl
@[simp] theorem State.setWing_rooms (s : State) (w : WingId) (x : Wing) : (s.setWing w x).rooms = s.rooms := rfl
@[simp] theorem State.setWing_tabs (s : State) (w : WingId) (x : Wing) : (s.setWing w x).tabs = s.tabs := rfl
@[simp] theorem State.setWing_job (s : State) (w : WingId) (x : Wing) : (s.setWing w x).job = s.job := rfl
@[simp] theorem State.setWing_flt (s : State) (w : WingId) (x : Wing) : (s.setWing w x).flt = s.flt := rfl
@[simp] theorem State.setWing_smoke (s : State) (w : WingId) (x : Wing) : (s.setWing w x).smoke = s.smoke := rfl
@[simp] theorem State.setWing_mir (s : State) (w : WingId) (x : Wing) : (s.setWing w x).mir = s.mir := rfl
@[simp] theorem State.setWing_fab (s : State) (w : WingId) (x : Wing) : (s.setWing w x).fab = s.fab := rfl
@[simp] theorem State.setWing_mem (s : State) (w : WingId) (x : Wing) : (s.setWing w x).mem = s.mem := rfl
@[simp] theorem State.setWing_pal (s : State) (w : WingId) (x : Wing) : (s.setWing w x).pal = s.pal := rfl
@[simp] theorem State.setWing_thr (s : State) (w : WingId) (x : Wing) : (s.setWing w x).thr = s.thr := rfl

@[simp] theorem State.modWing_pending (s : State) (w : WingId) (f : Wing → Wing) : (s.modWing w f).pending = s.pending := rfl
@[simp] theorem State.modWing_now (s : State) (w : WingId) (f : Wing → Wing) : (s.modWing w f).now = s.now := rfl
@[simp] theorem State.modWing_rc (s : State) (w : WingId) (f : Wing → Wing) : (s.modWing w f).rc = s.rc := rfl
@[simp] theorem State.modWing_free (s : State) (w : WingId) (f : Wing → Wing) : (s.modWing w f).free = s.free := rfl
@[simp] theorem State.modWing_rooms (s : State) (w : WingId) (f : Wing → Wing) : (s.modWing w f).rooms = s.rooms := rfl
@[simp] theorem State.modWing_tabs (s : State) (w : WingId) (f : Wing → Wing) : (s.modWing w f).tabs = s.tabs := rfl
@[simp] theorem State.modWing_job (s : State) (w : WingId) (f : Wing → Wing) : (s.modWing w f).job = s.job := rfl
@[simp] theorem State.modWing_flt (s : State) (w : WingId) (f : Wing → Wing) : (s.modWing w f).flt = s.flt := rfl
@[simp] theorem State.modWing_smoke (s : State) (w : WingId) (f : Wing → Wing) : (s.modWing w f).smoke = s.smoke := rfl
@[simp] theorem State.modWing_mir (s : State) (w : WingId) (f : Wing → Wing) : (s.modWing w f).mir = s.mir := rfl
@[simp] theorem State.modWing_fab (s : State) (w : WingId) (f : Wing → Wing) : (s.modWing w f).fab = s.fab := rfl
@[simp] theorem State.modWing_mem (s : State) (w : WingId) (f : Wing → Wing) : (s.modWing w f).mem = s.mem := rfl
@[simp] theorem State.modWing_pal (s : State) (w : WingId) (f : Wing → Wing) : (s.modWing w f).pal = s.pal := rfl
@[simp] theorem State.modWing_thr (s : State) (w : WingId) (f : Wing → Wing) : (s.modWing w f).thr = s.thr := rfl

@[simp] theorem State.room_setRoom (s : State) (r : RoomId) (x : Room) : (s.setRoom r x).room r = x := by
  simp [State.room, State.setRoom]

theorem State.room_setRoom_ne (s : State) (r q : RoomId) (x : Room) (h : q ≠ r) : (s.setRoom r x).room q = s.room q := by
  have h' : r.val ≠ q.val := fun e => h (Fin.ext e.symm)
  simp [State.room, State.setRoom, h']

@[simp] theorem State.wing_setWing (s : State) (w : WingId) (x : Wing) : (s.setWing w x).wing w = x := by
  simp [State.wing, State.setWing]

theorem State.wing_setWing_ne (s : State) (w v : WingId) (x : Wing) (h : v ≠ w) : (s.setWing w x).wing v = s.wing v := by
  have h' : w.val ≠ v.val := fun e => h (Fin.ext e.symm)
  simp [State.wing, State.setWing, h']

@[simp] theorem State.room_modRoom (s : State) (r : RoomId) (f : Room → Room) : (s.modRoom r f).room r = f (s.room r) := by
  simp [State.modRoom]

@[simp] theorem State.wing_modWing (s : State) (w : WingId) (f : Wing → Wing) : (s.modWing w f).wing w = f (s.wing w) := by
  simp [State.modWing]

@[simp] theorem State.room_setWing (s : State) (w : WingId) (x : Wing) (r : RoomId) : (s.setWing w x).room r = s.room r := rfl

@[simp] theorem State.room_modWing (s : State) (w : WingId) (f : Wing → Wing) (r : RoomId) : (s.modWing w f).room r = s.room r := rfl

@[simp] theorem State.wing_setRoom (s : State) (r : RoomId) (x : Room) (w : WingId) : (s.setRoom r x).wing w = s.wing w := rfl

@[simp] theorem State.wing_modRoom (s : State) (r : RoomId) (f : Room → Room) (w : WingId) : (s.modRoom r f).wing w = s.wing w := rfl

@[simp] theorem State.setRoom_setRoom (s : State) (r : RoomId) (x y : Room) : (s.setRoom r x).setRoom r y = s.setRoom r y := by
  simp [State.setRoom]

@[simp] theorem State.setWing_setWing (s : State) (w : WingId) (x y : Wing) : (s.setWing w x).setWing w y = s.setWing w y := by
  simp [State.setWing]

theorem State.setWing_setRoom (s : State) (r : RoomId) (x : Room) (w : WingId) (g : Wing) :
    (s.setRoom r x).setWing w g = (s.setWing w g).setRoom r x := rfl

@[simp] theorem State.setRoom_room (s : State) (r : RoomId) : s.setRoom r (s.room r) = s := by
  cases s; simp [State.setRoom, State.room]

@[simp] theorem State.setWing_wing (s : State) (w : WingId) : s.setWing w (s.wing w) = s := by
  cases s; simp [State.setWing, State.wing]

@[simp] theorem State.cyc_setRoom (s : State) (r q : RoomId) (x : Room) : (s.setRoom r x).cyc q = s.cyc q := rfl

@[simp] theorem State.cyc_modRoom (s : State) (r q : RoomId) (f : Room → Room) : (s.modRoom r f).cyc q = s.cyc q := rfl

/-- A command's outcome, where what it makes of the package leaves the queue and the clocks alone. -/
theorem State.done_eq (s t : State) (h1 : t.pending = s.pending) (h2 : t.now = s.now) (h3 : t.rc = s.rc) :
    s.done t = .next t := by
  cases t; simp_all [State.done]

@[simp] theorem State.done_self (s : State) : s.done s = .next s := rfl

@[simp] theorem State.done_setRoom (s : State) (r : RoomId) (x : Room) : s.done (s.setRoom r x) = .next (s.setRoom r x) := rfl

@[simp] theorem State.done_setWing (s : State) (w : WingId) (x : Wing) : s.done (s.setWing w x) = .next (s.setWing w x) := rfl

end Sys2Proof.Machine
end

