-- ==== Sys2Proof/Laws/Ops.lean ====
section
/-! SUPPORT. What the shared operations over a Room can do. -/

namespace Sys2Proof.Machine

/-- A trace event changes the Room's trace and nothing else. -/
theorem State.traceEv_eq (s : State) (r : RoomId) (ev unit : Nat) (hasUnit : Bool) (op : Nat) (tag : BitVec 16)
    (skip : Bool) (fcode detail : Nat) :
    ∃ tr, s.traceEv r ev unit hasUnit op tag skip fcode detail = s.setRoom r { s.room r with trace := tr } ∧
      tr.ctl = (s.room r).trace.ctl := by
  unfold State.traceEv
  rw [State.modRoom_def]
  split
  · exact ⟨_, rfl, rfl⟩
  · exact ⟨_, rfl, rfl⟩

/-- A report joins the queue, marked lost where the queue is full; nothing else changes. -/
theorem State.report_eq (s : State) (rp : Report) :
    ∃ rp', s.report rp = { s with flt := { s.flt with queue := s.flt.queue ++ [rp'] } } ∧ rp'.code = rp.code ∧
      rp'.cls = rp.cls ∧ rp'.lroom = rp.lroom ∧ rp'.tag = rp.tag ∧ rp'.body = rp.body := by
  unfold State.report
  simp only
  split
  · exact ⟨rp, rfl, rfl, rfl, rfl, rfl, rfl⟩
  · exact ⟨_, rfl, rfl, rfl, rfl, rfl, rfl⟩

/-- A fault of a Room command: one report with its code, tag and body, and the Room's trace. -/
theorem State.cmdFault_eq (s : State) (r : RoomId) (c : BitVec 128) (code : Nat) (body : List (BitVec 64)) (detail : Nat) :
    ∃ rp tr, s.cmdFault r c code body detail =
        { s.setRoom r { s.room r with trace := tr } with flt := { s.flt with queue := s.flt.queue ++ [rp] } } ∧
      rp.code = BitVec.ofNat 16 code ∧ rp.cls = 0#2 ∧ rp.lroom = BitVec.ofNat 7 r.val ∧ rp.tag = tagOf c ∧
      rp.body = body ∧ tr.ctl = (s.room r).trace.ctl := by
  unfold State.cmdFault State.raiseRoom
  obtain ⟨rp, h, h1, h2, h3, h4, h5⟩ := s.report_eq
    { code := BitVec.ofNat 16 code, cls := 0#2, lroom := BitVec.ofNat 7 r.val,
      wing := BitVec.ofNat 2 (wingOf r).val, src := 0#4, tag := tagOf c, body := body, lost := false }
  rw [h]
  obtain ⟨tr, h', hc⟩ := State.traceEv_eq { s with flt := { s.flt with queue := s.flt.queue ++ [rp] } } r 3 (unitOf c) true
    (opcodeOf c) (tagOf c) false code detail
  rw [h']
  exact ⟨rp, tr, rfl, h1, h2, h3, h4, h5, hc⟩

/-- The reads of Pantry tables give as many entries as are asked for. -/
theorem sgetRange_length {w : Nat} (m : SMap w) (k n : Nat) : (sgetRange m k n).length = n := by
  simp [sgetRange, sgetList]

/-- A freeze condition that the Room holds already changes nothing. -/
theorem State.freeze_held (s : State) (r : RoomId) (f : Frz) (h : (s.room r).frz.contains f = true) : s.freeze r f = s := by
  unfold State.freeze
  simp only [h, if_true]

/-- What a freeze leaves alone: all but the Room's conditions, counters and trace and the freeze of its Wing. -/
theorem State.freeze_eq (s : State) (r : RoomId) (f : Frz) :
    ∃ x g, s.freeze r f = (s.setWing (wingOf r) g).setRoom r x ∧ x.pan = (s.room r).pan ∧ x.vec = (s.room r).vec ∧
      x.queues = (s.room r).queues ∧ x.pend = (s.room r).pend ∧ x.on = (s.room r).on ∧
      (∃ b l n i o q, g = { s.wing (wingOf r) with
        frzOn := b, frzLen := l, frzSince := n, frzBits := i, frzRead := o, frzRep := q }) := by
  unfold State.freeze
  simp only
  split
  · refine ⟨s.room r, s.wing (wingOf r), ?_, rfl, rfl, rfl, rfl, rfl, ?_⟩
    · rw [State.setWing_wing, State.setRoom_room]
    · exact ⟨_, _, _, _, _, _, rfl⟩
  · simp only [State.modRoom_def, State.modWing_def, State.wing_setRoom]
    obtain ⟨tr, h, -⟩ := State.traceEv_eq ((s.setRoom r _).setWing (wingOf r) _) r 4 0 false 0 _ false 0 _
    rw [h, State.setWing_setRoom, State.setRoom_setRoom]
    refine ⟨_, _, rfl, ?_⟩
    refine ⟨by simp, by simp, by simp, by simp, by simp, ?_⟩
    have key : ∀ (P : Wing → Prop) (b : Bool) (x y : Wing), P x → P y → P (if b = true then x else y) := by
      intro P b x y hx hy
      cases b
      · exact hy
      · exact hx
    exact key (fun g => ∃ b l n i o q, g = { s.wing (wingOf r) with
      frzOn := b, frzLen := l, frzSince := n, frzBits := i, frzRead := o, frzRep := q }) _ _ _
      ⟨_, _, _, _, _, _, rfl⟩ ⟨_, _, _, _, _, _, rfl⟩

/-- A Smoke report changes the Smoke detector alone. -/
theorem State.smokeRep_eq (s : State) (room : Option RoomId) (check : Nat) (t u : BitVec 16) (d : Nat) :
    ∃ k, s.smokeRep room check t u d = { s with smoke := k } := by
  unfold State.smokeRep
  split
  · exact ⟨s.smoke, rfl⟩
  · split
    · exact ⟨_, rfl⟩
    · exact ⟨_, rfl⟩

/-- After a command leaves its queue: its unit's queue, the end of the tick's last DUR, and trace alone change. -/
theorem State.begin_eq (s : State) (r : RoomId) (unit : Nat) (c : QCmd) (dur lane : Nat) :
    ∃ tr, s.begin r unit c dur lane =
        s.setRoom r { (s.room r).setQueue unit (((s.room r).queue unit).drop 1) with
          seq := { (s.room r).seq with
            doneTag := if (s.room r).seq.doneAt < s.cyc r + dur then tagOf c.word else (s.room r).seq.doneTag
            doneAt := max (s.room r).seq.doneAt (s.cyc r + dur) }
          trace := tr
          pend := (s.room r).pend ++ (if bit (s.room r).trace.ctl 0 then
            [{ due := s.cyc r + dur, start := s.cyc r, word := c.word,
               eff := .complete unit (opcodeOf c.word) (!c.pred) }] else []) } ∧
      tr.ctl = (s.room r).trace.ctl := by
  have hq : ∀ (rm : Room) q, (rm.setQueue unit q).seq = rm.seq ∧ (rm.setQueue unit q).trace = rm.trace ∧
      (rm.setQueue unit q).pend = rm.pend := by
    intro rm q; unfold Room.setQueue; split <;> simp
  unfold State.begin
  simp only
  rw [State.modRoom_def]
  obtain ⟨tr, h, hc⟩ := State.traceEv_eq (s.setRoom r _) r 1 unit true (opcodeOf c.word) (tagOf c.word) (!c.pred) 0 lane
  rw [h]
  simp only [State.room_setRoom, State.setRoom_setRoom] at hc ⊢
  simp only [(hq _ _).1, (hq _ _).2.1, (hq _ _).2.2] at hc ⊢
  refine ⟨tr, ?_, hc⟩
  rw [hc]
  split
  · simp [State.addPend, State.modRoom_def]
  · simp

end Sys2Proof.Machine
end

