-- ==== Sys2Proof/Laws/Time.lean ====
section
/-! SUPPORT. What the Rooms that a freeze finds waiting change. -/

namespace Sys2Proof.Machine

/-- Taking a Room's freeze conditions changes that Room, the freeze of its Wing and the Smoke detector; the Room keeps its
queues, its Pantry, its vector registers and its effects still to come, and the Wing its clock and its counts. -/
theorem heldToo_eq (r : RoomId) (s : State) :
    ∃ x g k, heldToo r s = { (s.setWing (wingOf r) g).setRoom r x with smoke := k } ∧ x.pan = (s.room r).pan ∧
      x.vec = (s.room r).vec ∧ x.queues = (s.room r).queues ∧ x.pend = (s.room r).pend ∧ x.on = (s.room r).on ∧
      (∃ b l n i o q, g = { s.wing (wingOf r) with
        frzOn := b, frzLen := l, frzSince := n, frzBits := i, frzRead := o, frzRep := q }) := by
  unfold heldToo
  suffices h : ∀ (fs : List Frz) (s : State), ∃ x g k,
      fs.foldl (fun s f =>
        if (s.room r).frz.contains f then s
        else
          let s := match f with
            | .queue t u => s.smokeRep (some r) 7 t 0 u
            | _ => s
          s.freeze r f) s = { (s.setWing (wingOf r) g).setRoom r x with smoke := k } ∧ x.pan = (s.room r).pan ∧
      x.vec = (s.room r).vec ∧ x.queues = (s.room r).queues ∧ x.pend = (s.room r).pend ∧ x.on = (s.room r).on ∧
      (∃ b l n i o q, g = { s.wing (wingOf r) with
        frzOn := b, frzLen := l, frzSince := n, frzBits := i, frzRead := o, frzRep := q }) from h _ _
  intro fs
  induction fs with
  | nil =>
    intro s
    refine ⟨s.room r, s.wing (wingOf r), s.smoke, ?_, rfl, rfl, rfl, rfl, rfl, ⟨_, _, _, _, _, _, rfl⟩⟩
    rw [State.setWing_wing, State.setRoom_room]; rfl
  | cons f fs ih =>
    intro s
    rw [List.foldl_cons]
    have hs : ∃ k, (match f with
        | .queue t u => s.smokeRep (some r) 7 t 0 u
        | _ => s) = { s with smoke := k } := by
      cases f with
      | queue t u => exact s.smokeRep_eq (some r) 7 t 0 u
      | _ => exact ⟨s.smoke, rfl⟩
    obtain ⟨k0, hk⟩ := hs
    by_cases hc : (s.room r).frz.contains f = true
    · rw [if_pos hc]; exact ih s
    · rw [if_neg hc]
      simp only [hk]
      obtain ⟨x0, g0, h0, a1, a2, a3, a4, a5, b0, l0, n0, i0, o0, q0, rfl⟩ := State.freeze_eq { s with smoke := k0 } r f
      rw [h0]
      obtain ⟨x, g, k, h, c1, c2, c3, c4, c5, b, l, n, i, o, q, rfl⟩ := ih
        (({ s with smoke := k0 }.setWing (wingOf r) _).setRoom r x0)
      rw [h]
      refine ⟨x, _, k, ?_, ?_, ?_, ?_, ?_, ?_, ⟨b, l, n, i, o, q, rfl⟩⟩
      · simp [State.setRoom, State.setWing, State.wing]
      all_goals first
        | rw [c1, State.room_setRoom, a1]; rfl
        | rw [c2, State.room_setRoom, a2]; rfl
        | rw [c3, State.room_setRoom, a3]; rfl
        | rw [c4, State.room_setRoom, a4]; rfl
        | rw [c5, State.room_setRoom, a5]; rfl

end Sys2Proof.Machine
end

