-- ==== Sys2Proof/Tests/Slice0.lean ====
section
/-! SUPPORT. The model's own tests: ill-formed commands are refused, the spec's worked examples hold, and every statement
with hypotheses has states and operands that meet them. -/

set_option Elab.async false

namespace Sys2Proof.Tests

open Sys2Proof Sys2Proof.Machine Sys2Proof.Laws

/-! ## Small states -/

/-- A Wing whose clock runs at 20 periods per reference cycle, in a schedule tick. -/
def wing : Wing :=
  { Wing.reset with m := 20, period := RCQ / 20, nextEdge := RCQ / 20, clockOn := true, lock := true, active := true,
                    logCols := 12, periods := 1000, acyc := 1000, per0 := 900, ac0 := 900 }

/-- Every domain is on, a job of 96 Rooms runs, and nothing waits anywhere. -/
def base : State :=
  { State.reset with
    rooms := Vector.replicate 96 (Room.reset true)
    wings := Vector.replicate 4 wing
    job := { Job.reset with js := .running, lrooms := 96 } }

/-- `base` with Room 5 changed. -/
def room5 (f : Room → Room) : State := base.modRoom 5 f

/-- The words of a command. -/
def word (unit op : Nat) (fs : List (Nat × Nat × Nat)) : BitVec 128 :=
  BitVec.ofNat 128 (pack ([(0, 8, op), (8, 4, unit), (16, 16, 0x1234)] ++ fs))

/-- A command in a queue, its predicate true. -/
def cmd (unit op : Nat) (fs : List (Nat × Nat × Nat)) : QCmd := { word := word unit op fs, pred := true }

/-- Room 5 with a command of the sequencer in issue. -/
def seqAt (c : QCmd) (f : Room → Room := id) : State :=
  room5 fun rm => f { rm with seq := { rm.seq with issuing := true, now := [{ cmd := c, last := true }] } }

/-- Room 5 with a command at the head of its unit's queue. -/
def unitAt (c : QCmd) (f : Room → Room := id) : State :=
  room5 fun rm => f (rm.setQueue (unitOf c.word) [c])

/-- What a command leaves. -/
def after (i : Instr) (s : State) : State :=
  match exec i s with
  | .next t => t
  | .fault _ => State.reset
  | .refused _ => State.reset

/-! ## Ill-formed commands -/

/-- Another unit's command, an OPCODE of another row, a reserved OPCODE in a row that does not carry it. -/
theorem test_ill_formed_unit_commands :
    wellFormed (.sadd 5 (cmd 0 3 [])) = false ∧ wellFormed (.sadd 5 (cmd 1 2 [])) = false ∧
    wellFormed (.dwput 5 (cmd 1 0x7F [])) = false ∧ wellFormed (.dwfetch 5 (cmd 1 0x7F [])) = true ∧
    wellFormed (.dwfetch 5 (cmd 1 2 [])) = false ∧ wellFormed (.drain 5 (cmd 4 0x37 [])) = false := by decide +kernel

def stw (n : Nat) : StwMsg :=
  { src := 1, bcast := false, rtm := false, seq := 0, a := 0, b := 0, c := 0, data := List.replicate n 0 }

def hdr0 : PalboHdr := { rid := 7, retried := false, poison := false }

/-- A card, a companion access, its data, a slot, an ACK, a collective line, a Stairwell message, a mirror record and a log
exchange of a wrong length or number. -/
theorem test_ill_formed_outside_commands :
    wellFormed (.monHit 0 hdr0 (List.replicate 191 0) true) = false ∧ wellFormed (.cRd hdr0 64 true) = false ∧
    wellFormed (.cRd hdr0 32 false) = false ∧ wellFormed (.cWr hdr0 0 true 0 (List.replicate 64 0)) = false ∧
    wellFormed (.palboData hdr0 (List.replicate 128 0)) = false ∧
    wellFormed (.portSlotReceive 0 { frame := 1, bad := false, header := 0, payload := List.replicate 257 0 }) = false ∧
    wellFormed (.ackSend 0 0 96 0) = false ∧ wellFormed (.ackReceive 0 0 96 0 false) = false ∧
    wellFormed (.creditReturnArrival 0 0 96 0 0 false) = false ∧
    wellFormed (.collDn 0 0 0 0 (List.replicate 255 0)) = false ∧ wellFormed (.stwProbe (stw 225)) = false ∧
    wellFormed (.mirrorRecordReceive { stick := 0, w := 0, lroom := 96, lines := 0, crc := 0, tick := 0 }) = false ∧
    wellFormed (.mirrorLogExchange (List.replicate 4097 default) true) = false := by decide +kernel

/-! ## Worked examples of the spec -/

/-- 04, "Four E4M3 codes": 0x3C is 1.5, 0xD5 −13, 0x03 3 × 2^−9, 0x7E 448, 0x7F NaN. -/
theorem test_e4m3_codes : [0x3C, 0xD5, 0x03, 0x7E, 0x7F].map fE4M3.decode =
    [.fin false 12 (-3), .fin true 13 0, .fin false 3 (-9), .fin false 14 5, .nan] := by decide +kernel

/-- 04, the 4-bit table: entry 0x41 is 0.125 and entry 0x1E is 24. -/
theorem test_table_entries : entryVal 0 0x41#16 = .fin false 1 (-3) ∧ entryVal 0 0x1E#16 = .fin false 6 2 := by
  decide +kernel

/-- 04, the MXFP4 row times the MXFP8 column: 12. -/
theorem test_scaled_block : (blockVal ([(0x7, 0x3E), (0xB, 0x48), (0x1, 0x44)].map fun p =>
    (fE2M1.decode p.1, fE4M3.decode p.2)) (scaleVal 1 0x7D) (scaleVal 1 0x82)).1.toF32 = 0x41400000#32 := by decide +kernel

/-- 04, three E5M2 blocks: the defined result is +0. -/
theorem test_block_order :
    let one : Val := .fin false 1 0
    let v (l : List (Nat × Nat)) := blockVal (l.map fun p => (fE5M2.decode p.1, fE5M2.decode p.2)) one one
    (chain none [v [(0x6C, 0x6C), (0x3C, 0x3C), (0xEC, 0x6C)], v [(0x6C, 0x6C)], v [(0xEC, 0x6C)]]).1.toF32 = 0#32 := by
  decide +kernel

/-- 04 after R182: 1.296875 to E4M3 with the word 0x1234_B7C1 gives 0x3B, and 0x3A to nearest; after R173: 464, 465 and 500. -/
theorem test_conversions :
    convert (.flt fE4M3) (.sr 0x1234B7C1#32) true (ofF32 0x3FA60000#32) = (0x3B, 0#8) ∧
    convert (.flt fE4M3) .rne true (ofF32 0x3FA60000#32) = (0x3A, 0#8) ∧
    convert (.flt fE4M3) .rne true (.fin false 464 0) = (0x7E, 0#8) ∧
    (convert (.flt fE4M3) .rne false (.fin false 465 0)).1 = 0x7F ∧
    convert (.flt fE4M3) .rz false (.fin false 500 0) = (0x7E, flConvSat) := by decide +kernel

/-- 10 after R470: granule i of the embedding stream lies in this stack. -/
theorem test_interleave : (List.range 16).map (fun i => stackOf (0x2A400000 + 4096 * i)) =
    [0, 1, 2, 3, 4, 5, 6, 7, 1, 0, 3, 2, 5, 4, 7, 6] := by decide +kernel

/-- 16 after R813: the address of ROOM_DW_TIME word 2 in RM53; 17: 720 mV is code 0x59. -/
theorem test_addresses_and_codes : roomAddr 53 0x8C0 + 16 = 0x0200045008D0 ∧ railCode 720 = 0x59#8 := by decide +kernel

/-- 07 after R330: the 40 bytes of a bundle. -/
def bundleBytes : Bytes :=
  [0x0C, 0, 1, 0, 0, 0, 0, 0,
   0x04, 0x03, 0x31, 0x0A, 0x12, 0x10, 0xF1, 0x03, 0x7F, 0x7F, 0, 0, 0, 0, 0, 0,
   0x02, 0x90, 0x32, 0x0A, 0x33, 0x10, 0, 0, 1, 0, 0, 0, 0, 0, 0, 0]

def bundleProg : Prog := { Prog.reset with bundle := sputList [] 0x1A40 bundleBytes, bundleLen := 0x2000 }

/-- It has DELTA 12 and two commands: an MM128 with MDESC 18, HSA 2, SWAPQ 0xF, four rows, tag 0x0A31, and an SADD
SC3 = SC3 + 1 with tag 0x0A32 whose predicate is PB1 inverted; the next bundle begins at 0x1A68. -/
theorem test_bundle_example :
    let b := bundleProg.bundleAt 0x1A40
    b.delta = 12 ∧ b.bad = false ∧ b.len = 0x28 ∧
    b.cmds.map (fun c => (unitOf c, opcodeOf c, tagOf c)) = [(3, 4, 0x0A31#16), (0, 2, 0x0A32#16)] ∧
    b.cmds.map (fun c => (predOf 0x01#8 c, predOf 0x03#8 c)) = [(true, true), (true, false)] ∧
    b.cmds.map (fun c => (field c 32 11, field c 43 2, field c 52 4, field c 56 7, field c 64 7)) =
      [(18, 2, 15, 3, 127), (0x33, 2, 0, 0, 1)] := by decide +kernel

/-! ## The sequencer -/

theorem witness_SequencerComputes :
    (∀ op ∈ [1, 2, 3, 4, 5, 6, 7, 9], let c := cmd 0 op [(32, 4, 15), (36, 4, 3), (64, 64, 63)]
      SeqDue (seqAt c) 5 op c true [] ∧ ((seqAt c).room 5).seq.midBody []) ∧
    (let c := cmd 0 8 [(36, 4, 3), (45, 3, 7), (48, 3, 7)]
     SeqDue (seqAt c) 5 8 c true [] ∧ ((seqAt c).room 5).seq.midBody []) := by
  refine ⟨fun op h => ⟨seqDue_of ?_, Or.inr (Or.inr ?_)⟩, seqDue_of (by decide +kernel), Or.inr (Or.inr (by decide +kernel))⟩
  · revert op; decide +kernel
  · revert op; decide +kernel

/-- R322, R324: SC3 − 5 with a negative result, from a register that is also the destination; SSHR by 64 + 1. -/
theorem test_sequencer_arithmetic :
    let f (c : QCmd) := seqAt c fun rm => { rm with seq := { rm.seq with sc := rm.seq.sc.set 3 2 } }
    let sub := cmd 0 3 [(32, 4, 3), (36, 4, 3), (44, 1, 1), (64, 64, 5)]
    let shr := cmd 0 7 [(32, 4, 4), (36, 4, 3), (44, 1, 1), (64, 64, 65)]
    ((after (.ssub 5 sub) (f sub)).room 5).seq.sc[3] = -3#64 ∧ ((after (.sshr 5 shr) (f shr)).room 5).seq.sc[4] = 1#64 := by
  decide +kernel

/-- R322, R323: −1 is below 1 as a signed number and not as an unsigned one; PSET writes only what its mask names. -/
theorem test_predicates :
    let f (c : QCmd) := seqAt c fun rm => { rm with seq := { rm.seq with sc := rm.seq.sc.set 3 (-1) } }
    let slt := cmd 0 8 [(36, 4, 3), (44, 1, 1), (45, 3, 2), (48, 3, 2), (64, 64, 1)]
    let ult := cmd 0 8 [(36, 4, 3), (44, 1, 1), (45, 3, 6), (48, 3, 2), (64, 64, 1)]
    let set := cmd 0 9 [(64, 8, 0x0A), (72, 8, 0xF8)]
    ((after (.scmp 5 slt) (f slt)).room 5).seq.pb = 0x05#8 ∧ ((after (.scmp 5 ult) (f ult)).room 5).seq.pb = 0x01#8 ∧
    ((after (.pset 5 set) (f set)).room 5).seq.pb = 0x09#8 := by decide +kernel

theorem witness_SequencerReadsAndDset_field :
    (let c := cmd 0 0 [(51, 1, 1)]
     (((seqAt c).room 5).on = true ∧ (seqAt c).advancing (wingOf 5) = true ∧
      ((seqAt c).room 5).seq.now = [{ cmd := c, last := true }] ∧ c.pred = true ∧
      unitOf c.word = 0 ∧ opcodeOf c.word = 0 ∧ seqBad 0 c.word = true) ∧ ((seqAt c).room 5).seq.midBody []) ∧
    (∀ p ∈ [(0, 0x0A), (7, 0), (15, 255)], let c := cmd p.1 p.2 []
      ((seqAt c).room 5).seq.now = [{ cmd := c, last := true }] ∧ c.pred = true ∧ seqReserved c.word = true) :=
  ⟨⟨by decide +kernel, Or.inr (Or.inr (by decide +kernel))⟩, by decide +kernel⟩

theorem witness_SequencerReadsAndDset :
    (∀ op ∈ [0, 0x0C, 0x0D], let c := cmd 0 op [(32, 4, 1), (52, 6, 63), (64, 8, 255)]
      SeqDue (seqAt c) 5 op c true [] ∧ ((seqAt c).room 5).seq.midBody []) ∧
    (let c := cmd 0 0x0E [(36, 4, 1), (64, 11, 2047), (75, 8, 200), (83, 6, 55)]
     SeqDue (seqAt c) 5 0x0E c true [] ∧ ((seqAt c).room 5).seq.midBody [] ∧ swf ((seqAt c).room 5).prog.desc = true) := by
  refine ⟨fun op h => ⟨seqDue_of ?_, Or.inr (Or.inr ?_)⟩, seqDue_of (by decide +kernel),
    Or.inr (Or.inr (by decide +kernel)), by decide +kernel⟩
  · revert op; decide +kernel
  · revert op; decide +kernel

/-- R324, R330: the entry a DSET writes is in the store from the next gc on. -/
theorem test_dset_applies : sget (Prog.reset.applyDset { entry := 7, lsb := 4, width := 8, val := 0xABC }).desc 7 =
    0xBC0#256 := by decide +kernel

def loopCmd : QCmd := cmd 0 0x10 [(64, 16, 63), (80, 8, 2), (88, 4, 2), (92, 1, 1), (96, 16, 1)]

/-- Four loops are running, the innermost over bundles 4 to 9. -/
def fourLoops (rm : Room) : Room :=
  let f : LoopFrame := { tag := 3, first := 4, last := 9, left := 1, ptr := 64, incsc := 0, incen := false, incv := 0 }
  { rm with seq := { rm.seq with bidx := 6, loops := [f, f, f, f] } }

/-- One loop is running over the bundle in issue; its body must end with it. -/
def oneLoop (rm : Room) : Room :=
  let f : LoopFrame := { tag := 3, first := 4, last := 5, left := 1, ptr := 64, incsc := 15, incen := true, incv := 0xFFFF }
  { rm with seq := { rm.seq with bidx := 6, loops := [f] } }

theorem witness_LoopsStartAndRepeat :
    (SeqDue (seqAt loopCmd) 5 0x10 loopCmd true [] ∧ field loopCmd.word 12 4 = 0) ∧
    SeqDue (seqAt loopCmd fourLoops) 5 0x10 loopCmd true [] ∧ SeqDue (seqAt loopCmd oneLoop) 5 0x10 loopCmd true [] ∧
    (let c := cmd 0 0 []
     let q := ((seqAt c oneLoop).room 5).seq
     SeqDue (seqAt c oneLoop) 5 0 c true [] ∧ q.issuing = true ∧ q.loops.map (·.last) = [q.bidx - 1] ∧
       q.loops.map (·.left) = [1]) :=
  ⟨⟨seqDue_of (by decide +kernel), by decide +kernel⟩, seqDue_of (by decide +kernel), seqDue_of (by decide +kernel),
    seqDue_of (by decide +kernel), by decide +kernel⟩

/-- R326, R359: the LOOP of the spec's example starts; a fifth loop and a body that leaves the enclosing one stop the Room. -/
theorem test_loops :
    ((after (.loop 5 loopCmd) (seqAt loopCmd)).room 5).seq.loops.map (·.left) = [63] ∧
    ((after (.loop 5 loopCmd) (seqAt loopCmd fourLoops)).room 5).seq.structStop = true ∧
    ((after (.loop 5 loopCmd) (seqAt loopCmd oneLoop)).room 5).seq.structStop = true ∧
    (let q := ((after (.snop 5 (cmd 0 0 [])) (seqAt (cmd 0 0 []) oneLoop)).room 5).seq
     q.bptr = 64 ∧ q.bidx = 4 ∧ q.sc[15] = -1#64 ∧ q.loops.map (·.left) = [0]) := by decide +kernel

def tendCmd : QCmd := cmd 0 0x11 [(48, 3, 1), (64, 16, 0), (80, 16, 0xFFFF)]

def oneSeg (rm : Room) : Room := { rm with prog := { rm.prog with segs := [{ off := 0, budget := 1000, newM := 0 }] } }

theorem witness_TendSelectsSegment :
    let s := seqAt tendCmd oneSeg
    SeqDue s 5 0x11 tendCmd true [] ∧ field tendCmd.word 12 4 = 0 ∧ (s.room 5).seq.loops = [] ∧
    (field tendCmd.word 64 16 = 0xFFFF ∨ field tendCmd.word 64 16 < (s.room 5).prog.segs.length) ∧
    (field tendCmd.word 80 16 = 0xFFFF ∨ field tendCmd.word 80 16 < (s.room 5).prog.segs.length) :=
  ⟨seqDue_of (by decide +kernel), by decide +kernel⟩

/-- R306, R329: with PB1 0 the TEND selects NEXT_F, which ends the schedule. -/
theorem test_tend :
    let q := ((after (.tend 5 tendCmd) (seqAt tendCmd oneSeg)).room 5).seq
    q.next = 0xFFFF#16 ∧ q.ended = true ∧ q.issuing = false := by decide +kernel

/-- Room 5 at the bundle of the spec's example, 12 gc after the one before it. -/
def bundleAt1A40 : State :=
  room5 fun rm => { rm with
    prog := bundleProg
    seq := { rm.seq with issuing := true, fresh := false, bptr := 0x1A40, lastIssue := 988, pb := 3, pbVis := 1 } }

theorem witness_BundleIssues : BundleDue bundleAt1A40 5 (bundleProg.bundleAt 0x1A40) ∧
    BundleGood (bundleAt1A40.room 5).seq (bundleProg.bundleAt 0x1A40) :=
  ⟨bundleDue_of (by decide +kernel), bundleGood_of (by decide +kernel)⟩

/-- R310, R314: the MM128 joins the matrix queue; the SADD is kept for this gc with PB1 as it stood at the gc's start. -/
theorem test_bundle_issues :
    let rm := (after (.bundleIssue 5) bundleAt1A40).room 5
    (rm.queue 3).map (fun c => (tagOf c.word, c.pred)) = [(0x0A31#16, true)] ∧
    rm.seq.now.map (fun c => (tagOf c.cmd.word, c.cmd.pred)) = [(0x0A32#16, true)] ∧ rm.seq.bptr = 0x1A68 ∧
    (after (.bundleIssue 5) (bundleAt1A40.modRoom 5 fun rm => { rm with seq := { rm.seq with lastIssue := 989 } })) =
      (bundleAt1A40.modRoom 5 fun rm => { rm with seq := { rm.seq with lastIssue := 989 } }) := by decide +kernel

theorem witness_FalsePredicateSkips :
    let c : QCmd := { word := word 0 1 [(12, 4, 9), (64, 64, 7)], pred := false }
    let s := seqAt c
    (s.room 5).on = true ∧ s.advancing (wingOf 5) = true ∧ (s.room 5).seq.now = [{ cmd := c, last := true }] ∧
    unitOf c.word = 0 ∧ opcodeOf c.word = 1 ∧ (s.room 5).seq.midBody [] :=
  ⟨by decide +kernel, by decide +kernel, by decide +kernel, by decide +kernel, by decide +kernel, Or.inr (Or.inr (by decide +kernel))⟩

/-! ## Pantry control -/

def pownCmd : QCmd := cmd 2 1 [(32, 12, 0x801), (44, 1, 1)]

theorem witness_PantryOwnershipAndTags :
    (UnitDue (unitAt pownCmd) 5 2 1 pownCmd ∧ ((unitAt pownCmd).room 5).panFree ≤ (unitAt pownCmd).cyc 5 ∧
      panBad 1 pownCmd.word = false) ∧
    (let c := cmd 2 4 [(48, 12, 1), (64, 12, 3070), (76, 2, 2)]
     UnitDue (unitAt c) 5 2 4 c ∧ panBad 4 c.word = false) ∧
    (let c := cmd 2 4 [(48, 12, 2), (64, 12, 3070)]
     UnitDue (unitAt c) 5 2 4 c ∧ panBad 4 c.word = true) :=
  ⟨⟨unitDue_of (by decide +kernel), by decide +kernel⟩, ⟨unitDue_of (by decide +kernel), by decide +kernel⟩,
    unitDue_of (by decide +kernel), by decide +kernel⟩

/-- R429: the ownership of banks 0 and 11 is due in the gc after the start, and shows with its mask. -/
theorem test_pown :
    let rm := (after (.pown 5 pownCmd) (unitAt pownCmd)).room 5
    rm.pend.map (fun p => (p.due, p.eff)) = [(1001, .pown 0x801#12 true)] ∧ rm.queue 2 = [] ∧ rm.pan.own = 0 := by
  decide +kernel

def gateCmd : QCmd := cmd 2 2 [(32, 12, 0x800)]

/-- A byte and a tag in bank 11 and in bank 10. -/
def twoBanks (rm : Room) : Room :=
  { rm with pan := { rm.pan with mem := [(0xAFFFF, 1), (0xB0000, 2)], tags := [(2815, 3), (2816, 3)] } }

theorem witness_BanksGateAndWake :
    (UnitDue (unitAt gateCmd twoBanks) 5 2 2 gateCmd ∧ panBad 2 gateCmd.word = false ∧
      ((unitAt gateCmd twoBanks).room 5).wf = true ∧ ((unitAt gateCmd twoBanks).room 5).panFree ≤ 1000) ∧
    (let c := cmd 2 3 [(32, 12, 0xFFF)]
     let s := unitAt c fun rm => { rm with pan := { rm.pan with gated := 0x800 } }
     UnitDue s 5 2 3 c ∧ (s.room 5).panFree ≤ s.cyc 5 ∧ panBad 3 c.word = false) ∧
    (let s (n : Nat) := room5 fun rm => { rm with pan := { rm.pan with waking := 0x800, wakeAt := rm.pan.wakeAt.set 11 n } }
     (bit ((s 1000).room 5).pan.waking 11 = true ∧ ((s 1000).room 5).pan.wakeAt[11] ≤ (s 1000).cyc 5) ∧
     bit ((s 1001).room 5).pan.waking 11 = true ∧ (s 1001).cyc 5 < ((s 1001).room 5).pan.wakeAt[11]) :=
  ⟨⟨unitDue_of (by decide +kernel), by decide +kernel⟩, ⟨unitDue_of (by decide +kernel), by decide +kernel⟩,
    by decide +kernel⟩

/-- R423, R430: gating bank 11 loses its byte and its tag, and those of bank 10 stand. -/
theorem test_pgate :
    let p := ((after (.pgate 5 gateCmd) (unitAt gateCmd twoBanks)).room 5).pan
    p.mem = [(0xAFFFF, 1#8)] ∧ p.tags = [(2815, 3#2)] ∧ p.gated = 0x800 := by decide +kernel

/-! ## The Dumbwaiter's queue -/

/-- Stream descriptors: two rows of 512 bytes to lines 16 to 19, fetch (18) and write-back (19). -/
def streamDesc (dir : Nat) : BitVec 256 :=
  BitVec.ofNat 256 (pack [(0, 4, 2), (4, 1, dir), (8, 6, 48), (16, 48, 0x2A400000), (64, 20, 0x1000), (96, 16, 512),
    (112, 16, 2), (128, 32, 4096), (160, 20, 512), (192, 8, 1)])

/-- A table of two rows and the list of their indices. -/
def tableDesc (dir : Nat) : BitVec 256 :=
  BitVec.ofNat 256 (pack [(0, 4, 2), (4, 1, dir), (8, 6, 1), (16, 48, 0), (64, 20, 0xBFE00), (96, 16, 256),
    (112, 16, 2), (128, 32, 256), (160, 20, 256), (192, 8, 64)])

def indexDesc (dir : Nat) : BitVec 256 :=
  BitVec.ofNat 256 (pack [(0, 4, 2), (4, 1, dir), (8, 6, 1), (16, 48, 0x3FF00000), (96, 16, 256), (112, 16, 1),
    (192, 8, 1)])

/-- A square of 64 × 64 words. -/
def squareDesc (dir haddr : Nat) : BitVec 256 :=
  BitVec.ofNat 256 (pack [(0, 4, 2), (4, 1, dir), (8, 6, 1), (16, 48, haddr), (96, 16, 256), (112, 16, 64),
    (128, 32, 256), (192, 8, 1)])

def streams (rm : Room) : Room :=
  { rm with prog := { rm.prog with desc := [(18, streamDesc 0), (19, streamDesc 1), (20, tableDesc 0), (21, indexDesc 0),
      (22, squareDesc 0 0), (23, squareDesc 1 0x100000), (24, tableDesc 1)] }
            pan := { rm.pan with tags := [(17, 3)] } }

def dwCmd (op d1 d2 : Nat) : QCmd := cmd 1 op [(32, 11, d1), (43, 2, if op ≤ 3 then 3 else 0), (64, 11, d2), (75, 2, if op = 8 then 2 else 0)]

theorem witness_StreamsStart : ∀ x ∈ [(1, 18), (2, 19)],
    let c := dwCmd x.1 x.2 0
    let s := unitAt c streams
    DwDue s 5 x.1 c ∧ (s.room 5).dw.active (field c.word 43 2) = false ∧ swf (s.room 5).pan.tags = true ∧
    (s.room 5).descErr s.tabs (field c.word 32 11) 2 c.word = none ∧
    rangeErr (field c.word 32 11) (footRanges (streamOf ((s.room 5).descOf (field c.word 32 11)))) = none ∧
    dwFieldBad x.1 c.word (streamOf ((s.room 5).descOf (field c.word 32 11))).dir = false := by
  intro x h
  refine ⟨dwDue_of ?_, ?_⟩ <;> (revert x; decide +kernel)

/-- R439, R440: the lines 16, 18 and 19 become EMPTY, line 17, which has a tag, stands; four requests of one line. -/
theorem test_dwfetch :
    let c := dwCmd 1 18 0
    let rm := (after (.dwfetch 5 c) (unitAt c streams)).room 5
    rm.pan.tags = [(16, 1#2), (17, 3#2), (18, 1#2), (19, 1#2)] ∧
    rm.dw.streams.map (fun t => (t.firstAt, t.todo.map fun q => (q.haddr, q.n, q.line))) =
      [(1020, [(0x2A400000, 512, 16), (0x2A401000, 512, 18)])] := by decide +kernel

theorem witness_HaltAndEngineCommands :
    (let c := cmd 1 3 [(43, 2, 3)]
     DwDue (unitAt c streams) 5 3 c ∧ dwFieldBad 3 c.word false = false) ∧
    ∀ x ∈ [(8, 22, 23), (9, 20, 21), (10, 24, 21)],
      let c := dwCmd x.1 x.2.1 x.2.2
      let s := unitAt c streams
      DwDue s 5 x.1 c ∧ (s.room 5).dw.eng = none ∧ swf (s.room 5).pan.tags = true ∧
      (s.room 5).descErr s.tabs (field c.word 32 11) 2 c.word = none ∧
      (s.room 5).descErr s.tabs (field c.word 64 11) 2 c.word = none ∧
      (x.1 = 8 ∨ rangeErr (field c.word 32 11)
        (footRanges { streamOf ((s.room 5).descOf (field c.word 32 11)) with pring := 0 }) = none) ∧
      xgBad x.1 c.word ((s.room 5).descOf (field c.word 32 11)) ((s.room 5).descOf (field c.word 64 11)) = false := by
  refine ⟨⟨dwDue_of (by decide +kernel), by decide +kernel⟩, fun x h => ⟨dwDue_of ?_, ?_⟩⟩ <;> (revert x; decide +kernel)

/-! ## The matrix engine -/

/-- A tensor descriptor. -/
def tensor (fs : List (Nat × Nat × Nat)) : BitVec 256 := BitVec.ofNat 256 (pack ((0, 4, 1) :: fs))

/-- E4M3 rows: 4 × 128 (18), 4 × 256 (19), a 128 × 128 tile (20); FP32 vectors of 64 (21) and 256 (22); a row of 64 with
a local route (23). -/
def tensors (rm : Room) : Room :=
  { rm with prog := { rm.prog with desc := [
      (18, tensor [(8, 8, 8), (56, 16, 128), (72, 16, 128), (88, 16, 4)]),
      (19, tensor [(8, 8, 8), (56, 16, 256), (72, 16, 256), (88, 16, 4)]),
      (20, tensor [(8, 8, 8), (16, 20, 0xBC000), (56, 16, 128), (72, 16, 128), (88, 16, 128)]),
      (21, tensor [(16, 20, 0xBFF00), (56, 16, 256), (72, 16, 64), (88, 16, 1)]),
      (22, tensor [(16, 20, 0x1000), (56, 16, 1024), (72, 16, 256), (88, 16, 1)]),
      (30, BitVec.ofNat 256 (pack [(0, 8, 0x10), (11, 7, 9), (18, 7, 0x54)]))] } }

/-- The shadow buffers hold tiles in E4M3. -/
def tiles (rm : Room) : Room :=
  { tensors rm with mx := { rm.mx with shd := Vector.replicate 4 { MxBuf.reset with st := 2, fmt := 8, rows := 64, cols := 64 } } }

/-- The MM128 of the spec's example, and the other shapes. -/
def mmCmd (op : Nat) : QCmd :=
  cmd 3 op [(32, 11, if op = 4 ∨ op = 5 then 18 else 19), (43, 2, 2), (45, 2, if op = 4 ∨ op = 5 then 0 else 1), (48, 1, 1),
    (52, 4, 15), (56, 7, 3), (64, 7, if op = 4 ∨ op = 5 then 127 else 63), (72, 7, if op = 7 then 63 else 127)]

theorem witness_MatrixStreamsStart : ∀ op ∈ [4, 5, 6, 7],
    let c := mmCmd op
    let s := unitAt c tiles
    let rm := s.room 5
    let tm := mmTime rm s.tabs c.word
    let t := tensorOf (rm.descOf (field c.word 32 11))
    let m := min (field c.word 56 7 + 1) t.yext
    UnitDue s 5 3 op c ∧ rm.mx.strFree ≤ s.cyc 5 ∧ rm.mx.strLast ≤ s.cyc 5 + tm.d ∧
    rm.descErr s.tabs (field c.word 32 11) 1 c.word = none ∧
    (∀ y, y < m → ∀ p ∈ mmParts op tm.cls t, (rowRange 8 t p.1 p.2 y).1 + (rowRange 8 t p.1 p.2 y).2 ≤ 0xC0000 ∧
      ∀ o ∈ rowScaleOffs t 0 p.1 p.2 y, o < 0xC0000) ∧
    (∀ g ∈ mmLines op m tm.cls 8 t, g.1 = 0 → s.linesReady 5 (gcLines g.2.1 g.2.2)) := by
  intro op h
  refine ⟨unitDue_of ?_, ?_⟩
  · revert op; decide +kernel
  · unfold State.linesReady; revert op; decide +kernel

/-- 05, the example after R234: class N8, D = 8 gc, E = 4. -/
theorem test_mm128_times :
    let s := unitAt (mmCmd 4) tiles
    mmTime (s.room 5) s.tabs (mmCmd 4).word = { cls := .n8, d := 8, e := 4 } ∧
    (let rm := (after (.mm128 5 (mmCmd 4)) s).room 5
     rm.mx.strFree = 1004 ∧ rm.mx.strLast = 1012 ∧ rm.seq.doneAt = 1029 ∧ rm.queue 3 = []) := by decide +kernel

def mloadCmd : QCmd := cmd 3 1 [(32, 11, 20)]

theorem witness_TileLoadStarts :
    let s := unitAt mloadCmd tensors
    let rm := s.room 5
    let t := tensorOf (rm.descOf 20)
    UnitDue s 5 3 1 mloadCmd ∧ rm.mx.loadFree ≤ s.cyc 5 ∧ rm.mx.loadLast ≤ s.cyc 5 + decLat s.tabs t.fmt ∧
    mloadErr rm s.tabs mloadCmd.word = none ∧
    s.linesReady 5 ((rowLines 8 t 1 0 t.xext 0).1 ++ (rowLines 8 t 1 0 t.xext 0).2) :=
  ⟨unitDue_of (by decide +kernel), by unfold State.linesReady; decide +kernel⟩

/-- 05, the example after R235: LOADING from m + 8, READY from m + 136, the load lane free from m + 128. -/
theorem test_mload_times :
    let rm := (after (.mload 5 mloadCmd) (unitAt mloadCmd tensors)).room 5
    rm.mx.loadFree = 1128 ∧ rm.mx.loadLast = 1136 ∧
    rm.pend.any (fun p => p.due == 1008 && match p.eff with | .mxBegin _ ready => ready == 1136 | _ => false) = true := by
  decide +kernel

def swapCmd : QCmd := cmd 3 2 [(32, 4, 15)]

/-- The shadow buffer of quadrant 3 is LOADING. -/
def loading (rm : Room) : Room :=
  let rm := tiles rm
  { rm with mx := { rm.mx with shd := rm.mx.shd.set 3 { MxBuf.reset with st := 1 }, loads := [{ due := 2000, quads := 8 }] } }

theorem witness_TilesSwapAndSlotsRelease :
    (UnitDue (unitAt swapCmd tiles) 5 3 2 swapCmd ∧ field swapCmd.word 36 92 = 0 ∧
      ∀ q : Fin 4, (((unitAt swapCmd tiles).room 5).mx.settle 1000).shd[q].st ≠ 1) ∧
    (UnitDue (unitAt swapCmd loading) 5 3 2 swapCmd ∧ bit swapCmd.word 35 = true ∧
      (((unitAt swapCmd loading).room 5).mx.settle 1000).shd[3].st = 1) ∧
    (let h : Hatch := { Hatch.reset with st := 0x80, rel := [(3, 1000)] }
     h.slot 3 = 2 ∧ ∃ e ∈ h.rel, e.1 = 3 ∧ e.2 ≤ base.cyc 5) :=
  ⟨⟨unitDue_of (by decide +kernel), by decide +kernel⟩, ⟨unitDue_of (by decide +kernel), by decide +kernel⟩,
    by decide +kernel⟩

/-- R226: a swap with quadrant 3 LOADING swaps nothing and raises MM_TILE_NOT_READY. -/
theorem test_mswap_refused :
    let t := after (.mswap 5 swapCmd) (unitAt swapCmd loading)
    (t.room 5).mx.act = Vector.replicate 4 MxBuf.reset ∧ t.flt.queue.map (fun r => (r.code, r.tag)) = [(0x2013#16, 0x1234#16)] := by
  decide +kernel

/-! ## The vector engine -/

/-- A vector command that writes V20 from V0 and V1 in the lanes that VM0 enables. -/
def vecCmd (op : Nat) : QCmd :=
  cmd 4 op [(32, 6, if op = 0x18 then 7 else 20), (40, 6, 0), (48, 6, 1)]

def lanes (rm : Room) : Room :=
  { tensors rm with vec := { rm.vec with
      regs := [(255, 0x3F800000), (511, 0x40000000)], vm := rm.vec.vm.set 1 0 } }

theorem witness_VectorLanes : ∀ op ∈ [0x10, 0x11, 0x12, 0x13, 0x14, 0x15, 0x16, 0x17, 0x2E, 0x20, 0x21, 0x22, 0x23, 0x24,
      0x25, 0x26, 0x27, 0x28, 0x29, 0x2A],
    let c := vecCmd op
    let s := unitAt c lanes
    UnitDue s 5 4 op c ∧ (s.room 5).vec.free ≤ s.cyc 5 ∧ layoutAErr s.tabs op c.word = none ∧ (s.room 5).wf = true := by
  intro op h
  refine ⟨unitDue_of ?_, ?_⟩ <;> (revert op; decide +kernel)

/-- R260: lane 255 of V0 + V1 is 3.0, 4 gc after the start. -/
theorem test_vadd :
    ((after (.vadd 5 (vecCmd 0x10)) (unitAt (vecCmd 0x10) lanes)).room 5).pend.map (fun p => (p.due, match p.eff with
      | .vreg reg _ vals => (reg, vals.getD 255 0)
      | _ => (0, 0))) = [(1004, (20, 0x40400000#32))] := by decide +kernel

theorem witness_VectorMovesAndCompare : ∀ op ∈ [0x19, 0x30, 0x31, 0x18],
    let c := vecCmd op
    let s := unitAt c lanes
    UnitDue s 5 4 op c ∧ (s.room 5).vec.free ≤ s.cyc 5 ∧ layoutAErr s.tabs op c.word = none ∧ (s.room 5).wf = true := by
  intro op h
  refine ⟨unitDue_of ?_, ?_⟩ <;> (revert op; decide +kernel)

/-- A curve of mode 0 with 2^3 segments in slot 6. -/
def curve : CTable := { header := BitVec.ofNat 256 (pack [(8, 3, 3)]), segs := List.replicate 8 0, source := true }

def curveState (c : QCmd) : State :=
  { unitAt c lanes with tabs := { Tables.reset with ctab := Tables.reset.ctab.set 6 (some curve) } }

theorem witness_VectorReductionsAndConversions :
    (∀ op ∈ [0x34, 0x35, 0x36, 0x37, 0x2C, 0x2D],
      let c := vecCmd op
      let s := unitAt c lanes
      UnitDue s 5 4 op c ∧ (s.room 5).vec.free ≤ s.cyc 5 ∧ layoutAErr s.tabs op c.word = none ∧ (s.room 5).wf = true) ∧
    (let c := cmd 4 0x3C [(32, 6, 20), (96, 5, 6)]
     let s := curveState c
     UnitDue s 5 4 0x3C c ∧ (s.room 5).vec.free ≤ s.cyc 5 ∧ layoutAErr s.tabs 0x3C c.word = none ∧
     s.tabs.ctab.toList.getD (field c.word 96 5) none = some curve ∧ s.tabs.ctabDue = [] ∧ (s.room 5).wf = true) := by
  refine ⟨fun op h => ⟨unitDue_of ?_, ?_⟩, unitDue_of (by decide +kernel), by decide +kernel⟩ <;> (revert op; decide +kernel)

/-- R260, R278: the sum of 256 lanes, V0 holding 1.0 in lane 255 only, stands in every lane. -/
theorem test_vrsum : (reduceLanes 0x34 false (BitVec.allOnes 256) (List.replicate 255 0 ++ [0x3F800000#32])).getD 0 0 =
    0x3F800000#32 := by decide +kernel

/-- Hatch slot 2 is VECTOR, slot 1 FREE. -/
def hatched (rm : Room) : Room := { tensors rm with hatch := { Hatch.reset with st := 0x30, mem := [(32768, 5)] } }

theorem witness_VectorHatchAndGenerator :
    (∀ x ∈ [(4, 0), (5, 0), (6, 0), (4, 1), (5, 1)],
      let c := cmd 4 x.1 [(43, 2, 2), (45, 1, x.2), (48, 6, 63), (88, 7, if x.2 = 1 then 127 else 63)]
      let s := unitAt c hatched
      UnitDue s 5 4 x.1 c ∧ (s.room 5).vec.free ≤ s.cyc 5 ∧ (s.room 5).wf = true ∧ layoutBBad x.1 c.word = false ∧
      (s.room 5).hatch.slotAt (field c.word 43 2) (s.cyc 5) = 3) ∧
    (let c := cmd 4 6 [(43, 2, 1)]
     UnitDue (unitAt c hatched) 5 4 6 c ∧ layoutBBad 6 c.word = false ∧
     ((unitAt c hatched).room 5).hatch.slotAt 1 1000 = 0) ∧
    (let c := cmd 4 0x40 [(32, 11, 22), (48, 6, 60), (64, 16, 3)]
     UnitDue (unitAt c hatched) 5 4 0x40 c ∧
     vrngErr ((unitAt c hatched).room 5) (unitAt c hatched).tabs c.word = none) := by
  refine ⟨fun x h => ⟨unitDue_of ?_, ?_⟩, ⟨unitDue_of (by decide +kernel), by decide +kernel⟩, unitDue_of (by decide +kernel),
    by decide +kernel⟩ <;> (revert x; decide +kernel)

def vldCmd : QCmd := cmd 4 1 [(32, 11, 21), (48, 6, 3)]
def vstCmd : QCmd := cmd 4 2 [(32, 11, 21), (48, 6, 1)]

/-- One VADD of IN0 and V20, from tensor 21 to tensor 21. -/
def chainCmd : QCmd := cmd 4 8 [(32, 11, 21), (48, 11, 21), (64, 11, 30)]

theorem witness_VectorTransfersStart :
    (let s := unitAt vldCmd lanes
     let rm := s.room 5
     let t := tensorOf (rm.descOf (field vldCmd.word 32 11))
     UnitDue s 5 4 1 vldCmd ∧ rm.vec.free ≤ s.cyc 5 ∧ vldErr rm s.tabs vldCmd.word = none ∧
     s.linesReady 5 ((segLines (bitsOf s.tabs t.fmt) t (groupSegs false t (groupNo rm vldCmd.word))).take 1)) ∧
    (let s := unitAt chainCmd lanes
     let rm := s.room 5
     let k := chainOf chainCmd.word
     let first (i : Nat) : List Nat :=
       let t := tensorOf (rm.descOf i)
       (segLines (bitsOf s.tabs t.fmt) t (groupSegs k.pair t 0)).take 1
     UnitDue s 5 4 8 chainCmd ∧ chainErr rm s.tabs 5 s.job.lrooms (s.cyc 5) chainCmd.word = none ∧
     (k.pair = false → s.linesReady 5 (first k.idesc)) ∧ (k.in1 = true → s.linesReady 5 (first k.idesc1))) ∧
    (let s := unitAt vstCmd lanes
     let rm := s.room 5
     let t := tensorOf (rm.descOf (field vstCmd.word 32 11))
     UnitDue s 5 4 2 vstCmd ∧ rm.vec.free ≤ s.cyc 5 ∧ vstErr rm s.tabs 5 s.job.lrooms vstCmd.word = none ∧
     t.rte = false ∧ rm.out.lines = [] ∧ rm.pan.uses = [] ∧
     (storeLinesOf s.tabs t false (groupNo rm vstCmd.word) { (default : StoreHow) with lroom := 5 }
        (rm.vmOf 0) (regLanes rm.vec.regs 1)).1.length = 1) :=
  ⟨⟨unitDue_of (by decide +kernel), by unfold State.linesReady; decide +kernel⟩,
    ⟨unitDue_of (by decide +kernel), by unfold State.linesReady; decide +kernel⟩, unitDue_of (by decide +kernel), by decide +kernel⟩

/-- 06, the GELU chain: P 2 and, in profile 1, OCC 146 and DUR 156; in profile 2, OCC 142 and DUR 152. -/
theorem test_chain_times :
    let rm := { tensors (Room.reset true) with prog := { Prog.reset with desc := [
      (18, tensor [(8, 8, 8), (56, 16, 128), (72, 16, 128), (88, 16, 128)]),
      (30, BitVec.ofNat 256 (pack [(0, 8, 0x10), (11, 7, 9), (18, 7, 0x54), (64, 8, 0x3C), (96, 32, 6)]))] } }
    let c := word 4 8 [(32, 11, 18), (43, 1, 1), (44, 2, 1), (46, 1, 1), (48, 11, 18), (64, 11, 30), (76, 4, 1), (102, 1, 1)]
    chainTime rm Tables.reset 1 c = { groups := 64, p := 2, occ := 146, dur := 156 } ∧
    chainTime rm Tables.reset 2 c = { groups := 64, p := 2, occ := 142, dur := 152 } := by decide +kernel

/-! ## Effects of commands -/

theorem witness_EffectsBecomeVisible :
    (base.room 5).wf = true ∧
    (∃ p : Pend, p.eff = .vreg 63 1 (List.replicate 256 7) ∧ (List.replicate 256 (7 : BitVec 32)).length = 256) ∧
    (∃ p : Pend, p.eff = .vmask 7 1 1) ∧ (∃ p : Pend, p.eff = .hatch 3 127 64 (List.replicate 64 1)) ∧
    (∃ p : Pend, p.eff = .hatchFree 3) ∧
    (∃ p : Pend, p.eff = .pan 3071 1 [1] 0 ∧ (base.room 5).discards 3071 = false ∧
      (base.room 5).bankDown (bankOf 3071) (p.due - 1) = false) ∧
    (let s := room5 fun rm => { rm with pan := { rm.pan with gated := 0x800 } }
     ∃ p : Pend, p.eff = .corridor 3071 1 [1] 0 ∧ (s.room 5).discards 3071 = false ∧
      (s.room 5).bankDown (bankOf 3071) (p.due - 1) = true) ∧
    (∃ p : Pend, p.eff = .pown 0x801 true) ∧ ∃ p : Pend, p.eff = .ptag 3000 72 3 := by
  let p (e : Eff) : Pend := { due := 1001, start := 1000, word := 0, eff := e }
  exact ⟨by decide +kernel, ⟨p _, rfl, by decide +kernel⟩, ⟨p _, rfl⟩, ⟨p _, rfl⟩, ⟨p _, rfl⟩,
    ⟨p _, rfl, by decide +kernel⟩, ⟨p _, rfl, by decide +kernel⟩, ⟨p _, rfl⟩, ⟨p _, rfl⟩⟩

/-! ## The Outlet and the Mailslots -/

/-- A route descriptor. -/
def route (tgt droom drank : Nat) : BitVec 256 :=
  BitVec.ofNat 256 (pack [(0, 4, 3), (4, 3, tgt), (8, 7, droom), (16, 12, drank)])

/-- Routes to Room 5 (40) and to Room 95 of rank 7 (41), and a channel to each. -/
def routes (rm : Room) : Room :=
  let rm := tensors rm
  let ch (tgt room : Nat) : SendChan :=
    { tgt := tgt, mslot := 1, mch := 0, runits := 64, seq := 0xFFFF,
      dests := [{ rank := 7, room := BitVec.ofNat 7 room, cred := 64, wmir := 60 }] }
  { rm with prog := { rm.prog with desc := rm.prog.desc ++ [(40, route 0 5 0), (41, route 2 95 7)] }
            comm := { rm.comm with sends := [ch 0 5, ch 2 95] } }

def ocopyCmd : QCmd := cmd 5 1 [(32, 11, 22), (43, 11, 21), (55, 9, 0)]
def omsgCmd (d : Nat) : QCmd := cmd 5 2 [(32, 11, d), (43, 11, 21), (64, 2, 1), (70, 9, 256)]
def oincCmd (d : Nat) : QCmd := cmd 5 3 [(32, 11, d), (80, 6, 47), (88, 8, 7), (96, 16, 1)]

theorem witness_OutletCommandsStart :
    (let s := unitAt ocopyCmd routes
     let rm := s.room 5
     rm.out.free ≤ s.cyc 5 ∧ UnitDue s 5 5 1 ocopyCmd ∧ ocopyErr rm s.tabs 5 s.job.lrooms ocopyCmd.word = none ∧
     s.linesReady 5 [(tensorOf (rm.descOf 21)).base / 256]) ∧
    (∀ d ∈ [40, 41], let s := unitAt (omsgCmd d) routes
     let rm := s.room 5
     UnitDue s 5 5 2 (omsgCmd d) ∧ sendErr rm s.tabs 5 s.job.lrooms (omsgCmd d).word true = none ∧ rm.out.lines = [] ∧
     (∀ u ∈ rm.runs, u.id < rm.nextRun) ∧ s.linesReady 5 [(tensorOf (rm.descOf 21)).base / 256] ∧
     (rm.comm.chanOf (routeOf (rm.descOf d)) 1).isSome = true) ∧
    (∀ d ∈ [40, 41], let s := unitAt (oincCmd d) routes
     let rm := s.room 5
     UnitDue s 5 5 3 (oincCmd d) ∧ sendErr rm s.tabs 5 s.job.lrooms (oincCmd d).word false = none ∧ rm.out.lines = [] ∧
     ((routeOf (rm.descOf d)).tgt = 0 ↔ d = 40)) := by
  refine ⟨?_, fun d h => ⟨unitDue_of ?_, ?_⟩, fun d h => ⟨unitDue_of ?_, ?_⟩⟩
  · exact ⟨by decide +kernel, unitDue_of (by decide +kernel), by unfold State.linesReady; decide +kernel⟩
  · revert d; decide +kernel
  · unfold State.linesReady; revert d; decide +kernel
  · revert d; decide +kernel
  · revert d; decide +kernel

theorem witness_MessagesSpendCredit : ((unitAt (omsgCmd 41) routes).room 5).comm.sends[1]?.map (·.runits) = some 64 := by
  decide +kernel

/-- R542, R549: a record of 17 units at ring position 60 of 64 costs 4 units of PAD more, and the mirror pointer is then 17. -/
theorem test_message_cost : msgCost 64 60 256 = (21, 17) := by decide +kernel

def drainCmd : QCmd := cmd 4 0x38 [(32, 2, 3), (40, 6, 63)]

/-- Mailslot 3 with a ring of 4 lines at line 3,068, whose sender is Room 40 of rank 6 (the example of chapter 11). -/
def ringOf (recs : List MsgRec) : Ring :=
  { base := 3068, nlines := 4, smc := false, srank := 6, sroom := 40, smch := 0, wptr := 50, rptr := 36, used := 14 * recs.length,
    expSeq := 0xFFFF, recs := recs, processed := 0, refused := 0 }

def oneRec : MsgRec :=
  { hdr := BitVec.ofNat 128 (pack [(20, 9, 200), (32, 12, 6), (44, 7, 40)]), pad := false, units := 14,
    payload := List.replicate 200 1, poison := false, readyAt := 1000 }

def withRing (recs : List MsgRec) (rm : Room) : Room :=
  { rm with comm := { rm.comm with rings := rm.comm.rings.set 3 (some (ringOf recs)) } }

theorem witness_DrainTakesRecords : ∀ recs ∈ [[], [oneRec]],
    let s := unitAt drainCmd (withRing recs)
    UnitDue s 5 4 0x38 drainCmd ∧ (s.room 5).vec.free ≤ s.cyc 5 ∧ field drainCmd.word 34 6 = 0 ∧
    field drainCmd.word 46 82 = 0 ∧ (s.room 5).comm.ring (field drainCmd.word 32 2) = some (ringOf recs) ∧
    (∀ m ∈ recs, m.pad = false ∧ m.readyAt ≤ (s.wing (wingOf 5)).periods) ∧
    ∀ p ∈ (s.room 5).pend, ¬(p.word = drainCmd.word ∧ p.start = s.cyc 5) := by
  intro recs h
  refine ⟨unitDue_of ?_, ?_⟩ <;> (revert recs; decide +kernel)

/-- 11, R555: a DRAIN of 64 records takes 256 gc and returns its 14 units 260 gc after its start. -/
theorem test_drain :
    let rm := (after (.drain 5 drainCmd) (unitAt drainCmd (withRing [oneRec]))).room 5
    rm.vec.free = 1256 ∧ (rm.comm.ring 3).map (fun g => (g.rptr, g.used)) = some (50, 0) ∧
    (rm.pend.any fun p => p.due == 1260 && decide (p.eff = .credits 3 14)) = true := by decide +kernel

/-! ## The latch unit -/

/-- Latch 47 has GEN 7, MODE 1, EXPECT 4, ARRIVED 3 and NEXT 2; latch 5 the same with MODE 0. -/
def latches (rm : Room) : Room :=
  { rm with latch := { rm.latch with
      words := (rm.latch.words.set 47 0x0002_0003_0004_0107#64).set 5 0x0002_0003_0004_0007#64 } }

def linitCmd (n mode gen ex : Nat) : QCmd := cmd 6 1 [(32, 6, n), (40, 8, gen), (48, 1, mode), (64, 16, ex)]
def laddCmd (n gen inc : Nat) : QCmd := cmd 6 2 [(32, 6, n), (40, 8, gen), (64, 16, inc)]

theorem witness_LatchWordsAreSetAndAddedTo :
    (∀ c ∈ [linitCmd 47 1 8 4, linitCmd 47 1 8 2, linitCmd 47 0 9 4],
      let s := unitAt c latches
      UnitDue s 5 6 1 c ∧ (s.room 5).latFree ≤ s.cyc 5 ∧ latErr (s.room 5) 1 c.word = none) ∧
    ∀ c ∈ [laddCmd 5 7 1, laddCmd 5 8 2, laddCmd 5 6 1, laddCmd 5 9 1, laddCmd 5 7 0xFFFC, laddCmd 5 7 2],
      let s := unitAt c latches
      UnitDue s 5 6 2 c ∧ (s.room 5).latFree ≤ s.cyc 5 ∧ latErr (s.room 5) 2 c.word = none := by
  refine ⟨fun c h => ⟨unitDue_of ?_, ?_⟩, fun c h => ⟨unitDue_of ?_, ?_⟩⟩ <;> (revert c; decide +kernel)

/-- R519 to R521, R525: an arrival for this generation reaches EXPECT and releases the barrier; stale, too far ahead, below 0 and above
EXPECT are the four faults. -/
theorem test_latch_arrivals :
    ((after (.ladd 5 (laddCmd 47 7 1)) (unitAt (laddCmd 47 7 1) latches)).room 5).latch.word 47 = 0x0000_0002_0004_0108#64 ∧
    [(6, 1), (9, 1), (7, -4), (7, 2), (8, 2)].map (fun x => match latchAdd 0x0002_0003_0004_0007#64 x.1 x.2 with
      | .inl w => (latArrived w, latNext w)
      | .inr e => (e, 0)) =
    [(0x6003, 0), (0x6001, 0), (0x6002, 0), (0x6001, 0), (3, 4)] := by decide +kernel

def lwatchCmd : QCmd := cmd 6 3 [(32, 6, 47), (40, 8, 8), (49, 1, 1), (50, 2, 1), (52, 3, 2), (56, 3, 7), (80, 12, 2944), (96, 24, 40000)]
def lbarCmd : QCmd := cmd 6 4 [(32, 6, 47), (40, 8, 7), (52, 3, 2), (56, 3, 0), (64, 16, 1)]

/-- A watch of generation 8 of latch 47 with a timeout of `n`. -/
def watchOf (gen : BitVec 8) (n : Nat) : Watch :=
  { latch := 47, gen := gen, atleast := false, val := 0, pd := 2, wlen := true, wline := 2944, start := 0, timeout := n, tag := 1 }

theorem witness_WatchesStartAndEnd :
    (UnitDue (unitAt lwatchCmd latches) 5 6 3 lwatchCmd ∧
      latErr ((unitAt lwatchCmd latches).room 5) 3 lwatchCmd.word = none ∧ bit lwatchCmd.word 49 = true ∧
      ((unitAt lwatchCmd latches).room 5).wf = true ∧ ((unitAt lwatchCmd latches).room 5).latFree ≤ 1000) ∧
    (UnitDue (unitAt lbarCmd latches) 5 6 4 lbarCmd ∧ latErr ((unitAt lbarCmd latches).room 5) 4 lbarCmd.word = none ∧
      bit lbarCmd.word 49 = false) ∧
    (let s := room5 fun rm => { latches rm with latch := { (latches rm).latch with
       watches := rm.latch.watches.set 7 (some (watchOf 6 40000)) } }
     ((s.room 5).latch.watches[7]).map (·.holds ((s.room 5).latch.word 47)) = some true ∧
     (s.wing (wingOf 5)).clockOn = true) ∧
    ∀ n ∈ [0, 1000], (watchOf 8 n).holds (((unitAt lbarCmd latches).room 5).latch.word 47) = false ∧
      (watchOf 8 n).start + n ≤ (base.wing (wingOf 5)).periods := by
  refine ⟨⟨unitDue_of (by decide +kernel), by decide +kernel⟩, ⟨unitDue_of (by decide +kernel), by decide +kernel⟩,
    by decide +kernel, by decide +kernel⟩

/-- R533: after 1,000 gc a watch that does not hold reports LATCH_TIMEOUT; a timeout of 0 reports nothing. -/
theorem test_watch_timeout :
    let f (n : Nat) := after (.watchTimeout 5 7) (room5 fun rm => { latches rm with latch := { (latches rm).latch with
      watches := rm.latch.watches.set 7 (some (watchOf 8 n)) } })
    ((f 1000).flt.queue.map (·.code), ((f 1000).room 5).wends.map (fun e => (e.due, e.val))) = ([0x6005#16], [(1003, false)]) ∧
    (f 0).flt.queue = [] ∧ ((f 1001).room 5).wends = [] := by decide +kernel

/-! ## Matrix rows -/

def ones : MxBuf :=
  { st := 2, fmt := 8, smode := 0, sq := false, rows := 64, cols := 64,
    cells := List.replicate 64 (List.replicate 64 (.fin false 1 0)), scales := [] }

/-- The MM128 of the example is at its first entry gc, its rows read. -/
def entering (rm : Room) : Room :=
  let rm := tensors rm
  let u : Run := { (default : Run) with id := 3, cmd := mmCmd 4, start := 992, cls := .n8, e := 4, descs := [sget rm.prog.desc 18] }
  { rm with runs := [u], nextRun := 4, mx := { rm.mx with shd := Vector.replicate 4 ones, act := Vector.replicate 4 ones } }

theorem witness_MatrixRowsEnterAndResult :
    let s := room5 entering
    let rm := s.room 5
    rm.run 3 = some (rm.runs.headD default) ∧
    mmEntryErr { rm with mx := rm.mx.settle (s.cyc 5) } s.tabs (mmCmd 4).word (sget rm.prog.desc 18) .n8 = none ∧
    (fmtOf s.tabs.ptab (tensorOf (sget rm.prog.desc 18)).fmt).map (·.elem) = some (.flt fE4M3) ∧
    (tensorOf (sget rm.prog.desc 18)).smode = 0 ∧ (∀ g ∈ (rm.runs.headD default).got, g.bad = false) ∧
    bit (mmCmd 4).word 47 = false := by decide +kernel

/-- 05, the example after R234: the four rows enter in gc n + 8 to n + 11 and slot 2 is RELEASING until n + 29. -/
theorem test_mm128_entry :
    let rm := (mmEntry 5 3 (room5 entering)).room 5
    rm.pend.map (fun p => (p.due, p.eff)) = [(1000, .mmRow 3 0), (1001, .mmRow 3 1), (1002, .mmRow 3 2), (1003, .mmRow 3 3)] ∧
    rm.hatch.rel = [(2, 1021)] ∧ rm.hatch.slot 2 = 2 := by decide +kernel

theorem witness_IntegerProductsAreExact :
    let a : List Int := List.replicate 128 (-128)
    a.length = a.length ∧ a.length ≤ 128 ∧ a ≠ [] ∧ ∀ x ∈ a ++ a, -128 ≤ x ∧ x ≤ 127 := by decide +kernel

/-! ## The Arrivals port -/

/-- One line of ones for line 3,071. -/
def arrOf (kind : ArrKind) : Arr :=
  { kind := kind, line := 3071, data := List.replicate 256 1, mask := fullMask, poison := 0, retried := true, refresh := false,
    src := 0, srank := 0, sroom := 0, fab := false, bs := false }

/-- Room 5 with one arrival, line 3,071 with this tag, and bank 11 owned or not. -/
def arriving (kind : ArrKind) (tag : BitVec 2) (own : BitVec 12) : State :=
  room5 fun rm => { latches (withRing [] rm) with pan := { rm.pan with
    buf := [arrOf kind], own := own, tags := sput [] 3071 tag } }

theorem witness_ArrivalsAreWritten : ∀ x ∈ [(1, 0), (0, 0x800), (0, 0x7FF), (2, 0x800), (3, 0x800)],
    let s := arriving .data (BitVec.ofNat 2 x.1) (BitVec.ofNat 12 x.2)
    s.takes 5 0 = some (arrOf .data) ∧ (arrOf .data).kind = .data ∧ (arrOf .data).fab = false ∧ (s.room 5).wf = true ∧
    (s.room 5).bankDown (bankOf 3071) (s.cyc 5) = false := by decide +kernel

/-- R424, R425, R428: an EMPTY line becomes FULL with its retried bit; a line that is FULL is discarded with PAN_OVERRUN. -/
theorem test_arrival_write :
    let e := (after (.arrivalWrite 5 0) (arriving .data 1 0)).room 5
    sget e.pan.tags 3071 = 3#2 ∧ sget e.pan.mem 0xBFFFF = 1#8 ∧ sget e.pan.bits 3071 = 1#2 ∧ e.pan.buf = [] ∧ e.pan.portAt = 1001 ∧
    (after (.arrivalWrite 5 0) (arriving .data 3 0)).flt.queue.map (·.code) = [0x4004#16] := by decide +kernel

theorem witness_PacketsReachLatchesAndMailslots :
    (let k : ArrKind := .inc 5 7 1
     let s := arriving k 0 0xFFF
     s.takes 5 0 = some (arrOf k) ∧ (s.room 5).wf = true ∧ (5 < 48) ∧
     latchAdd ((s.room 5).latch.word 5) 7 1 = .inl 0x0002_0004_0004_0007#64 ∧ latMode 0x0002_0004_0004_0007#64 = false ∧
     (s.room 5).pend = []) ∧
    (let h : BitVec 128 := BitVec.ofNat 128 (pack [(0, 16, 0xFFFF), (20, 9, 256), (32, 12, 6), (44, 7, 40)])
     let s := arriving (.msg 3 h) 0 0xFFF
     s.takes 5 0 = some (arrOf (.msg 3 h)) ∧ (s.room 5).wf = true ∧ (s.room 5).comm.ring 3 = some (ringOf []) ∧
     (ringOf []).fromSender h = true ∧ msgSeq h = (ringOf []).expSeq.toNat ∧
     ((ringOf []).place h (List.replicate 256 1) false 0).map (·.1) = some 0 ∧
     ∀ l ∈ linesOf (256 * 3068 + 16 * 0) (recordBytes h (List.replicate 256 1)).length,
       (s.room 5).bankDown (bankOf l) (s.cyc 5) = false ∧ inMask (s.room 5).pan.own (bankOf l) = true) := by decide +kernel

/-- A write-back request of two lines, 3,070 and 3,071, both FULL. -/
def putReq (phase : ReqPhase) (fetch : Bool) (addr : Nat) : Req :=
  { (default : Req) with id := 9, room := 5, fetch := fetch, addr := addr, n := 512, line := 3070, left := [3070, 3071], phase := phase,
                         tag := 0x77, data := if fetch && phase == .served then List.replicate 2 (List.replicate 256 1, 0) else [] }

def putting : State :=
  { room5 fun rm => { rm with pan := { rm.pan with tags := [(3070, 3), (3071, 3)], mem := [(0xBFE00, 9)] } } with
    mem := { Mem.reset with reqs := [putReq .reading false 0] } }

theorem witness_PortReadsAndScrubs :
    (putting.portFree 5 = true ∧ putting.arrCand 5 0 = none ∧ putting.readCand 5 0 = some (3070, .put 9) ∧
      putting.mem.reqs.map (·.id) = [9] ∧ (putting.room 5).lineBad 3070 (putting.cyc 5) = false ∧ (putting.room 5).wf = true) ∧
    ∀ n ∈ [63, 64], let s := room5 fun rm => { rm with pan := { rm.pan with scFree := rm.pan.scFree.set 11 n, scLine := rm.pan.scLine.set 11 255 } }
      (s.room 5).on = true ∧ inMask (s.busyBanks 5 0) 11 = false ∧ (s.room 5).bankDown 11 (s.cyc 5) = false ∧
      (n = 63 → (s.room 5).pan.scFree[11] < (s.room 5).pan.gap.toNat) ∧
      (n = 64 → (s.room 5).pan.gap.toNat ≤ (s.room 5).pan.scFree[11] ∧ ∀ i, i < 32 →
        sget (s.room 5).pan.due (32 * (256 * 11 + (s.room 5).pan.scLine[11]) + i) = 0#1 ∧
        sget (s.room 5).pan.sbe (32 * (256 * 11 + (s.room 5).pan.scLine[11]) + i) = 0#1) := by decide +kernel

/-- R433: line 3,070 is read first and becomes EMPTY; its bytes join the request. -/
theorem test_writeback_read :
    let t := after (.writebackRead 5 0) putting
    (t.room 5).pan.tags = [(3070, 1#2), (3071, 3#2)] ∧ t.mem.reqs.map (fun q => (q.left, (q.data.map (·.1.headD 0)))) =
      [([3071], [9#8])] := by decide +kernel

/-! ## Dumbwaiter requests -/

/-- A stream with one request of one line whose address is `a`, in pages 0x4000_0000 to 0x4020_0000. -/
def streaming (fetch : Bool) (a : Nat) : State :=
  let t : DwStream :=
    { (default : DwStream) with
        id := 2, ctx := 1, fetch := fetch, tag := 5, bound := true, first := true, firstAt := 1000, depth := 1,
        todo := [{ haddr := a, n := 256, line := 3071 }], pageLo := 0x40000000, pageHi := 1 }
  room5 fun rm => { rm with dw := { rm.dw with streams := [t] }, pan := { rm.pan with tags := [(3071, if fetch then 1 else 3)] } }

theorem witness_RequestsIssueAndReturn :
    (∀ x ∈ [(true, 0x401FFF00), (false, 0x40000000), (true, 0x40200000), (false, 0x3FFFFF00)],
      let s := streaming x.1 x.2
      (s.reqPick 5).map (fun t => (t.id, t.todo.map fun q => t.withheld q)) =
        some (2, [decide (0x40200000 ≤ x.2 ∨ x.2 < 0x40000000)]) ∧ (s.room 5).wf = true ∧ (s.room 5).dw.streams.length = 1) ∧
    (let s : State := { base with mem := { Mem.reset with reqs := [putReq .served true 0] } }
     s.reqOf 9 = some (putReq .served true 0) ∧ (putReq .served true 0).room = 5 ∧
     (putReq .served true 0).data.length = (putReq .served true 0).n / 256 ∧ (s.room 5).pan.held = [] ∧
     (s.room 5).pan.buf.length + (putReq .served true 0).n / 256 ≤ 32) ∧
    (let s : State := { base with mem := { Mem.reset with reqs := [putReq .served false 0] } }
     s.reqOf 9 = some (putReq .served false 0) ∧ (putReq .served false 0).room = 5) := by decide +kernel

/-- R441, R442: the line of a fetch inside its pages becomes PEND; outside them a write-back leaves its line EMPTY and is counted. -/
theorem test_dw_requests :
    let a := after (.dwRequestIssue 5) (streaming true 0x401FFF00)
    let b := after (.dwRequestWithheld 5) (streaming false 0x3FFFFF00)
    (a.room 5).pan.tags = [(3071, 2#2)] ∧ a.mem.reqs.map (fun q => (q.addr, q.phase)) = [(0x401FFF00, .sent)] ∧
    (b.room 5).pan.tags = [(3071, 1#2)] ∧ (b.room 5).dw.fenced = 1 ∧ b.mem.reqs = [] := by decide +kernel

/-! ## The Cellars -/

/-- Every right of every subject is granted. -/
def allRights : List (BitVec 64) :=
  (List.range 5).map fun k => BitVec.ofNat 64 (pack [(0, 4, k), (8, 12, 0), (20, 12, 4095), (32, 16, 0xFFFF)])

/-- A configuration with TICK_RC 10,000, BOOT_M 25, DEBUG_ALLOW 1, LINK_LOST_RC 600,000, START_LEAD_RC 25,000 and RSP_LIMIT_RC 1,000. -/
def image : CfgImage :=
  { CfgImage.reset with
    param := BitVec.ofNat 512 (pack [(0, 20, 10000), (24, 5, 25), (29, 1, 1), (30, 1, 1), (32, 32, 1000000), (64, 32, 500), (96, 32, 600000),
      (128, 32, 25000), (192, 32, 1000)])
    therm := [BitVec.ofNat 32 (pack [(0, 12, 1600), (12, 8, 64)]), BitVec.ofNat 32 (pack [(0, 12, 1680), (12, 8, 128)])]
    priv := allRights }

/-- A Porch of rank 0 of four ranks, root 0, whose port 0 leads along dimension 0. -/
def porch : Porch :=
  { Porch.reset with
    cfg := BitVec.ofNat 128 (pack [(12, 13, 4), (40, 6, 3), (64, 5, 16)])
    entries := (List.range 4).map fun n => (n, BitVec.ofNat 64 (n * 2 ^ 16 + 2 ^ 40))
    ports := Porch.reset.ports.set 0 { Port.reset with enable := true, live := true } }

/-- `base` with every domain on, the configuration above, and the Palbo link up with credits. -/
def full : State :=
  { base with
    fab := { Fab.reset with porches := Vector.replicate 2 porch }
    pal := { Palbo.reset with live := true, reqCred := 100, monCred := 64, armed := 0xFF }
    rc := 700000
    now := 700000 * RCQ
    job := { base.job with ticking := true, lastBound := 700000, bound := 710000 }
    thr := { Thr.reset with
      boot := { Boot.reset with valid := true, img := image }
      clk := { Clock.reset with refOk := true, jclk := 5000 }
      pwr := { Power.reset with cellar := 0xF, porch := 3, palbo := true, spine := 0xF, porst := true, rg := 0xFF } } }

/-- `full` with another job state. -/
def inState (js : JState) : State := { full with job := { full.job with js := js } }

/-- `full` with one Dumbwaiter request and a region that grants `rights` at its address. -/
def requesting (q : Req) (regions : List (BitVec 128)) : State := { full with mem := { Mem.reset with reqs := [q], regions := regions } }

/-- A region entry that makes the pages of HBM readable and writable. -/
def wholeHbm : BitVec 128 := BitVec.ofNat 128 (pack [(48, 2, 3), (64, 30, 0x7FDFFFF), (96, 1, 1)])

/-- A stack queue with one item. -/
def queued (i : QItem) (m : Mem := Mem.reset) : State := ({ full with mem := m }).modStack 7 fun k => { k with trained := true, queue := [i] }

def writeItem : QItem := { (default : QItem) with addr := 0x7000, n := 64, writes := [(0x7000, List.replicate 64 3)] }
def readItem : QItem := { (default : QItem) with req := some 9, addr := 0x7000, n := 256 }

theorem witness_StacksServeRequests :
    (∀ fetch ∈ [true, false], let s := requesting (putReq .sent fetch 0x7000) []
      s.reqOf 9 = some (putReq .sent fetch 0x7000) ∧ s.hasRight 0x7000 (!fetch) = false) ∧
    (∀ fetch ∈ [true, false], let s := requesting (putReq .sent fetch 0x7000) [wholeHbm]
      s.reqOf 9 = some (putReq .sent fetch 0x7000) ∧ s.hasRight 0x7000 (!fetch) = true ∧ isComp 0x7000 = false ∧
      s.smoke.debug = false ∧ stackOf 0x7000 = 7) ∧
    (((queued writeItem).stack 7).queue = [writeItem] ∧ (queued writeItem).stackUp 7 = true ∧
      ((queued writeItem).stack 7).winEnd ≤ (queued writeItem).rc ∧ swf (queued writeItem).mem.hbm = true ∧ writeItem.req = none) ∧
    (let s := queued readItem { Mem.reset with reqs := [putReq .queued true 0x7000] }
     (s.stack 7).queue = [readItem] ∧ s.stackUp 7 = true ∧ (s.stack 7).winEnd ≤ s.rc ∧
     s.reqOf 9 = some (putReq .queued true 0x7000) ∧
     readItem.writes = [] ∧ readItem.bad = [] ∧ readItem.addr % 256 = 0 ∧
     ∀ c, c < 4 → sget s.mem.hbmBad (readItem.addr / 64 + c) = 0#1 ∧ sget s.mem.hbmSbe (readItem.addr / 64 + c) = 0#1) ∧
    (∀ x ∈ [(64, false), (256, true)],
      let i : QItem := { readItem with req := none, ans := some (7, x.2), n := x.1, addr := 0x7F00 }
      let s := queued i
      (s.stack 7).queue = [i] ∧ s.stackUp 7 = true ∧ (s.stack 7).winEnd ≤ s.rc ∧ swf s.mem.hbm = true ∧ i.writes = [] ∧
      i.bad = [] ∧ i.n = (if x.2 then 256 else 64) ∧ i.addr % i.n = 0 ∧
      (∀ c, c < 4 → sget s.mem.hbmBad (i.addr / 64 + c) = 0#1 ∧ sget s.mem.hbmSbe (i.addr / 64 + c) = 0#1) ∧
      s.pal.live = true ∧ s.pal.fenced = false ∧ s.pal.waiting = [] ∧ s.pal.unacked.length + 4 ≤ 128) := by
  decide +kernel

/-- R473, R475: the head of the queue writes its 64 bytes and leaves the queue. -/
theorem test_hbm_write :
    let t := after (.hbmRequestBegin 7) (queued writeItem)
    (t.stack 7).queue = [] ∧ sget t.mem.hbm 0x703F = 3#8 ∧ sget t.mem.hbm 0x7040 = 0#8 := by decide +kernel

/-- A stack at refresh level `l` whose temperature reads `c` sixteenths. -/
def warm (l : Nat) (c : BitVec 12) : State := full.modStack 7 fun k => { k with level := l, temp := c, trained := true }

def engOp : EngOp := { room := 5, op := 9, word := (dwCmd 9 20 21).word, desc := tableDesc 0, desc2 := indexDesc 0 }

theorem witness_RefreshScrubAndEngines :
    full.fixedDue = true ∧ full.stackUp 7 = true ∧ (warm 1 1400).extraDue 7 = true ∧
    (∀ x ∈ [(2, 1520), (1, 1360), (2, 1360), (2, 1489), (1, 1329), (1, 1328), (0, 1359)],
      ((warm x.1 (BitVec.ofNat 12 x.2)).stack 7).level = x.1 ∧ ((warm x.1 (BitVec.ofNat 12 x.2)).stack 7).temp.toInt = x.2 ∧ x.1 ≤ 2) ∧
    (let s := warm 0 0
     (s.stack 7).trained = true ∧ (s.stack 7).queue = [] ∧ (s.stack 7).winEnd ≤ s.rc ∧ (s.stack 7).scrubFrom ≤ s.rc ∧
     sget s.mem.hbmBad (scrubAddr 7 (s.stack 7).scrub / 64) = 0#1 ∧ sget s.mem.hbmSbe (scrubAddr 7 (s.stack 7).scrub / 64) = 0#1 ∧
     (s.stack 7).scrub + 1 < 2 ^ 30) ∧
    (let s : State := { warm 0 0 with rc := 24 * 360000000000 }
     bit s.thr.pwr.cellar 3 = true ∧ ∃ k ∈ s.mem.cellars[3].stk.toList, k.trained = true ∧
      k.scrubFrom + s.mem.cellars[3].hours.toNat * 360000000000 ≤ s.rc) ∧
    (let k : Cellar := { Cellar.reset with gs := { queue := [engOp], cur := none } }
     bit full.thr.pwr.cellar 0 = true ∧ (k.engine .gatherScatter).cur = none ∧ (k.engine .gatherScatter).queue = [engOp]) ∧
    (let u : EngRun := { op := engOp, rows := [], out := 0, cmps := 0, bits := 0, gran := [] }
     let k : Cellar := { Cellar.reset with gs := { queue := [], cur := some u } }
     let s := full.modRoom 5 fun rm => { rm with dw := { rm.dw with eng := some { (default : RoomEng) with dlen := false } } }
     (k.engine .gatherScatter).cur = some u ∧ u.rows = [] ∧ u.out = 0 ∧ u.cmps = 0 ∧
     (s.room u.op.room).dw.eng.map (·.dlen) = some false) := by decide +kernel

/-- R479: at 85 °C level 1, at 95 °C level 2, back 2 °C below each. -/
theorem test_refresh_level :
    [(0, 1359), (0, 1360), (1, 1520), (2, 1489), (2, 1488), (1, 1329), (1, 1328)].map (fun x =>
      ((after (.refreshLevelEval 7) (warm x.1 (BitVec.ofNat 12 x.2))).stack 7).level) = [0, 1, 2, 2, 1, 1, 0] := by decide +kernel

/-! ## Job Cards and the Palbo link -/

/-- A card with its CRC: sequence number, command and arguments. -/
def card (seq opc a0 a1 a2 : Nat) : Bytes :=
  let body := leBytes 4 seq ++ leBytes 4 opc ++ leBytes 8 a0 ++ leBytes 8 a1 ++ leBytes 8 a2 ++ List.replicate 156 0
  body ++ leBytes 4 (crc32c body).toNat

/-- R674: CRC-32C of the nine digits is 0xE306_9283. -/
theorem test_crc32c : crc32c [0x31, 0x32, 0x33, 0x34, 0x35, 0x36, 0x37, 0x38, 0x39] = 0xE3069283#32 := by decide +kernel

/-- The hypotheses of the receipt of a card of slot 0. -/
def goodCard (s : State) (bs : Bytes) : Bool :=
  let c := cardOf 0 bs
  !(cardReserved bs) && c.fieldsOk && (c.opc == 0 || s.granted 0 0 (c.opc.toNat - 1)) && s.cardLegal c && c.opc != 2

set_option maxRecDepth 100000 in
theorem witness_JobCardsAreReceived :
    full.palUp = true ∧ full.gbRoom = true ∧ full.pal.card = none ∧ full.pal.reread = none ∧ bit full.pal.armed 0 = true ∧
    (∀ bs ∈ [card 1 0 0 0 0, card 1 3 2 0 0], (cardOf 0 bs).seq = full.pal.last[0] + 1 ∧ cardCrcOk bs = true ∧ goodCard full bs = true) ∧
    (cardOf 0 (card 0 0 0 0 0)).seq = full.pal.last[0] ∧
    (let bs := (card 1 0 0 0 0).set 191 0
     (cardOf 0 bs).seq = full.pal.last[0] + 1 ∧ cardCrcOk bs = false) ∧
    (let s : State := { full with pal := { full.pal with reread := some (0, 700000) } }
     s.palUp = true ∧ s.pal.reread = some (0, 700000) ∧ 700000 ≤ s.rc ∧ goodCard s (card 1 0 0 0 0) = true) := by decide +kernel

set_option maxRecDepth 100000 in
/-- R663, R676, R677: a STOP card of the next number is taken; one with a bad CRC is read again 100 rc later. -/
theorem test_card_receipt :
    ((after (.monHit 0 hdr0 (card 1 3 0 0 0) true) full).pal.card).map (fun c => (c.seq, c.opc)) = some (1#32, 3#8) ∧
    (after (.monHit 0 hdr0 ((card 1 3 0 0 0).set 191 0) true) full).pal.reread = some (0, 700100) := by decide +kernel

/-- A card that has been accepted. -/
def jobCard (opc a0 a1 : Nat) : JobCard :=
  { slot := 63, seq := 7, opc := BitVec.ofNat 8 opc, arg0 := BitVec.ofNat 64 a0, arg1 := BitVec.ofNat 64 a1, arg2 := 1000, arg3 := 0 }

theorem witness_JobCardsAct :
    (∀ x ∈ [(0, 0, JState.running), (1, 0, .configured), (2, 5, .loaded), (3, 0, .running), (3, 1, .running), (3, 2, .running),
        (4, 0, .loaded), (4, 0, .done), (4, 0, .faulted), (5, 3, .configured), (6, 0, .configured), (6, 0x030000000000, .configured),
        (7, 0, .running)],
      let s : State := { inState x.2.2 with pal := { full.pal with card := some (jobCard x.1 x.2.1 0) } }
      s.pal.card.map (·.opc) = some (BitVec.ofNat 8 x.1) ∧ s.gbRoom = true ∧ (jobCard x.1 x.2.1 0).slot < 64 ∧ s.job.js = x.2.2 ∧
      s.thr.clk.jclk.toNat + s.startLead < 2 ^ 64 ∧ (∀ w, (s.wing w).fstop = none) ∧ s.job.pend = 0 ∧ s.job.frozen = false) ∧
    (let comp : SMap 8 := []
     let pt := parsePtab (sgetRange comp 0x030000000000 (ptabLen (recBits (sgetRange comp 0x030000000000 16) 0 2))) false
     inComp 0x030000000000 = true ∧ full.pal.fenced = false ∧ bit (jobCard 6 0x030000000000 0).arg1 0 = false ∧ pt.isSome = true) := by
  decide +kernel

/-- 13: a START card with T0 1,000 places the first boundary START_LEAD_RC after now; a STOP drains a running job. -/
theorem test_cards_act :
    let s (opc a0 a1 : Nat) (js : JState) : State := { inState js with pal := { full.pal with card := some (jobCard opc a0 a1) } }
    let a := after .cardStart (s 2 0xC0FFEE 1 .loaded)
    let b := after .cardStop (s 3 0 0 .running)
    a.job.t0 = 1000#64 ∧ a.job.startRc = 30000#64 ∧ a.job.seed = 0xC0FFEE#64 ∧ a.job.startRt = true ∧ b.job.js = .draining ∧
    (b.pal.cardSeq, b.pal.cardSlot, b.pal.cardStatus) = (7#32, 63#6, 0#4) := by decide +kernel

def preq (op : Nat) (use : PUse) : PReq := { rid := 7, op := op, addr := 0, multi := true, use := use, sentAt := 699000 }

/-- `full` with one device request outstanding. -/
def asking (q : PReq) : State := { full with pal := { full.pal with reqs := [q] } }

theorem witness_PalboMessagesAct :
    full.palUp = true ∧
    (asking (preq 1 (.fetch 9 1))).pal.reqs.find? (fun x => x.rid == hdr0.rid) = some (preq 1 (.fetch 9 1)) ∧
    (asking (preq 2 (.put 9))).pal.reqs.find? (fun x => x.rid == hdr0.rid) = some (preq 2 (.put 9)) ∧
    (∀ x ∈ [(0x7FDFFFFFC0, false), (0x7FDFFFFF00, true)], full.compBad hdr0 x.1 x.2 = none ∧ full.compTarget x.1 = .hbm ∧
      full.porchFull (stackOf x.1) = false ∧ stackOf x.1 < 8) ∧ full.pal.waiting = [] := by decide +kernel

/-- R666: a companion read of 64 bytes of HBM is answered with them, in one flit. -/
theorem test_c_rd :
    let s : State := { full with mem := { Mem.reset with hbm := [(64, 9)] } }
    let t := after (.cRd hdr0 64 false) s
    t.pal.unacked = [] ∧ (after (.hbmRequestBegin ⟨stackOf 64, by decide⟩) t).pal.unacked.map (fun f => (field f.2.hdr 22 6, field f.2.hdr 32 8, f.2.body.headD 0)) =
      [(0x20, 7, 9#8)] := by decide +kernel

theorem witness_PalboLinkStates :
    (let s := asking (preq 2 .doorplate)
     s.pal.reqs.find? (fun x => x.rid == 7#8) = some (preq 2 .doorplate) ∧ (preq 2 .doorplate).sentAt + s.rspLimit ≤ s.rc) ∧
    (let s : State := { full with pal := { full.pal with live := false, retraining := true, downSince := 100000 } }
     s.thr.pwr.palbo = true ∧ s.pal.fenced = false ∧ s.pal.live = false ∧ s.pal.downSince + s.linkLost ≤ s.rc ∧
     s.pal.retraining = true ∧ s.palTired = false) ∧
    (let s : State := { full with pal := { full.pal with retrainAt := [1, 2, 3, 4] } }
     s.palTired = true) ∧
    (let s : State := { full with pal := { full.pal with cfg := 1, plate := some { image := List.replicate 64 0, mark := 3 } } }
     s.pal.plate.map (·.mark) = some 3 ∧ s.palUp = true ∧ s.pal.enabled = true ∧ s.plateHeld 3 = false ∧ s.pal.waiting = [] ∧
     s.pal.freeRid.isSome = true ∧ 0 < s.pal.reqCred ∧ s.pal.unacked.length < 128) := by decide +kernel

/-- R686: an answer missing for 1,000 rc is violation 0x07. -/
theorem test_rsp_timeout :
    let t := after (.palboRspTimeout 7) (asking (preq 2 .doorplate))
    t.pal.lastCode = 7#8 ∧ t.flt.queue.map (·.code) = [0x8001#16] ∧
    after (.palboRspTimeout 7) (asking { preq 2 .doorplate with sentAt := 699001 }) = asking { preq 2 .doorplate with sentAt := 699001 } := by
  decide +kernel

/-! ## The fabric -/

/-- A header of a slot from Room 9 of rank 1: series number and acknowledgement, kind, destination, other fields. -/
def slotHdr (q kind drank droom : Nat) (more : List (Nat × Nat × Nat) := []) : BitVec 128 :=
  BitVec.ofNat 128 (pack ([(0, 8, q), (8, 8, 0xFF), (21, 4, kind), (29, 12, drank), (41, 7, droom), (48, 12, 1), (60, 7, 9)] ++ more))

def slot (frame : Fin 64) (bad : Bool) (h : BitVec 128) : Slot :=
  { frame := frame, bad := bad, header := h, payload := List.replicate 256 7 }

/-- `full` with port 0 of Porch 0 changed. -/
def withPort (f : Port → Port) : State := full.modPorch 0 fun x => x.modPort 0 f

theorem witness_SlotsArriveInOrder :
    (∀ no : PortId, (no = 0 ∨ no = 16) → let q := (full.porch (porchOf no)).port (portIn no)
      q.live = true ∧ q.mirror = false ∧ q.stwOut = [] ∧ q.dser.expect = 0#8 ∧ q.sser.expect = 0#8) ∧
    (∀ f : Fin 64, f ≠ 0 → (slot f true 0).bad = true ∧ (slot f true 0).frame.val ≠ 0) ∧
    (∀ x ∈ [(1, 1, false), (255, 1, false), (0, 10, true), (0, 15, true), (0, 1, false), (0, 5, false)],
      let sl := slot 63 false (slotHdr x.1 x.2.1 0 95)
      sl.bad = false ∧ sl.frame.val ≠ 0 ∧ sl.frame.val ≠ 32 ∧ bit sl.header 16 = false ∧ pktKind sl.header ≠ 0 ∧
      pktKind sl.header ≠ kStw ∧ pktBs sl.header = false ∧ badPacket sl.frame.val sl.header = x.2.2) ∧
    (∀ lane ∈ [0, 1], let sl := slot 1 false (slotHdr 0 2 2 95 [(26, 1, 1), (27, 1, lane)])
      pktKind sl.header ≠ 0 ∧ badPacket sl.frame.val sl.header = false ∧ pktKind sl.header ≠ kStw ∧ pktBs sl.header = true ∧
      bit sl.header 16 = false) ∧
    (let sl := slot 32 false (slotHdr 0 8 0 0 [(97, 10, 1)])
     bit sl.header 16 = false ∧ pktKind sl.header = kStw ∧ badPacket 32 sl.header = false ∧ sl.header.extractLsb' 0 8 = 0#8 ∧
     pktDrank sl.header = full.ownRank ∧ (full.porch 0).rankOk (pktSrank sl.header).toNat = true) ∧
    (∀ n ∈ [1, 7, 0x12], 1 ≤ getLE (slice (List.replicate 256 (BitVec.ofNat 8 n)) 0 256) 0 1 ∧
      getLE (slice (List.replicate 256 (BitVec.ofNat 8 n)) 0 256) 0 1 ≤ 0x12) ∧
    getLE (slice (List.replicate 256 0#8) 0 256) 0 1 = 0 ∧
    0x12 < getLE (slice (List.replicate 256 0x13#8) 0 256) 0 1 ∧
    bit (pktArg (slotHdr 0 8 0 0 [(97, 1, 0)])) 0 = false := by decide +kernel

/-- R797: SOP 0x13 is reserved, and FAB_PACKET names the port; an IDLE slot with an ARG bit is bad too (R586, R649). -/
theorem test_slot_reserved :
    (let st (sop : Byte) := after (.portSlotReceive 0
       { frame := 32, bad := false, header := slotHdr 0 8 0 0, payload := List.replicate 256 sop }) full
     (st 0x12).thr.stw.inbox.length = 1 ∧ (st 0x13).thr.stw.inbox = [] ∧
     (st 0x13).flt.queue.map (fun r => (r.code, r.body.headD 9)) = [(0x7003#16, 0#64)]) ∧
    (after (.portSlotReceive 0 (slot 5 false (slotHdr 9 0 0 0 [(97, 1, 1)]))) full).flt.queue.length = 1 := by
  decide +kernel

/-- R586, R649: a reserved ARG bit of a LINE packet makes it bad; a good one in sequence enters the router with its input. -/
theorem test_slot_line :
    badPacket 5 (slotHdr 0 1 0 95 [(97, 12, 0xFFF)]) = false ∧ badPacket 5 (slotHdr 0 1 0 95 [(109, 1, 1)]) = true ∧
    (let t := after (.portSlotReceive 16 (slot 5 false (slotHdr 0 1 2 95))) full
     (t.porch 1).inq.map (fun e => (e.1, e.2.data.headD 0)) = [(0, 7#8)] ∧ ((t.porch 1).port 0).dser.expect = 1#8 ∧
     (t.porch 0).inq = []) := by decide +kernel

def upOf (dim : BitVec 2) (dir : Bool) : PortBringUp :=
  { trained := true, partner := 0x55, partDim := dim, partDir := dir, mirror := false, delay := 3200, rtt := 112 }

theorem witness_PortsAreLostAndReturn :
    (let s := withPort fun q => { q with live := false, downSince := 100000 }
     let q := (s.porch 0).port 0
     q.enable = true ∧ q.mirror = false ∧ q.live = false ∧ q.lost = false ∧ q.downSince + s.linkLost ≤ s.rc) ∧
    (let s := withPort fun q => { q with live := false, retraining := true }
     let q := (s.porch 0).port 0
     q.retraining = true ∧ q.mirror = false ∧ q.stwOut = [] ∧
     (∀ b ∈ [upOf 0 true, upOf 1 true, upOf 0 false], b.trained = true ∧ b.mirror = false ∧ b.rtt ≤ 112) ∧
     ((upOf 0 true).partDim = q.dim ∧ (upOf 0 true).partDir ≠ q.dir) ∧ (upOf 1 true).partDim ≠ q.dim ∧
     (upOf 0 false).partDir = q.dir) := by decide +kernel

/-- R618: after retraining, the slots that the partner has not received are sent again with RETRIED. -/
theorem test_retraining_replays :
    let k := barePkt (slotHdr 0 3 2 0)
    let s := withPort fun q => { q with live := false, retraining := true, dser := { q.dser with next := 9, unacked := [(7, k), (8, k)] } }
    (((after (.portRetrainingEnd 0 (upOf 0 true) 7 0) s).porch 0).port 0).dser.unacked.map (fun u => (u.1, pktRetried u.2.hdr)) =
      [(8#8, true)] := by decide +kernel

/-- `full` with packets at the inputs of Porch 0 and in its hold buffer. -/
def arrived (l : List (Nat × Pkt)) (hold : List Pkt := []) : State := full.modPorch 0 fun x => { x with inq := l, hold := hold }

/-- A packet for a Room of a rank, of this age. -/
def pkt (kind drank droom age : Nat) : Pkt := { barePkt (slotHdr 0 kind drank droom [(67, 5, age)]) with data := List.replicate 256 5 }

/-- No port is live. -/
def dead (s : State) : State := (s.modPorch 0 fun x => x.modPort 0 fun q => { q with live := false }).modPorch 1 fun x =>
  x.modPort 0 fun q => { q with live := false }

/-- A second port is live, along dimension 1. -/
def second (s : State) : State := s.modPorch 0 fun x => x.modPort 15 fun _ => { Port.reset with enable := true, live := true, dim := 1 }

/-- The packet of input 15 is older than that of input 3. -/
def oldest : Nat × Pkt := (15, pkt 1 2 95 15)
def inputs : List (Nat × Pkt) := [(3, pkt 1 0 5 14), oldest]

theorem witness_RouterTakesTheOldest_order :
    (oldest ∈ inputs ∧ ∀ f ∈ inputs,
      f = oldest ∨ pktAge f.2.hdr < pktAge oldest.2.hdr ∨ pktAge f.2.hdr = pktAge oldest.2.hdr ∧ oldest.1 < f.1) ∧
    ∀ f ∈ [(15, pkt 1 0 5 15), (14, pkt 1 2 95 15)], let e := (14, pkt 1 2 95 15)
      f = e ∨ pktAge f.2.hdr < pktAge e.2.hdr ∨ pktAge f.2.hdr = pktAge e.2.hdr ∧ e.1 < f.1 := by decide +kernel

theorem witness_RouterTakesTheOldest_eject : ∀ k ∈ [kLine, kCredit, kCollDn], let e := (3, pkt k 0 5 0)
    let s := arrived [(4, pkt 1 2 5 0), e]
    s.bsStep 0 0 = none ∧ s.holdStep 0 0 = none ∧ e ∈ (s.porch 0).inq ∧ pktDrank e.2.hdr = s.ownRank ∧
    destPorch e.2.hdr = 0 ∧ s.ejectFree 0 e.2.hdr = true := by decide +kernel

theorem witness_RouterTakesTheOldest :
    (∀ s ∈ [arrived inputs, dead (arrived inputs), arrived inputs (List.replicate 7 (pkt 1 2 5 0)),
        arrived inputs (List.replicate 8 (pkt 1 2 5 0))],
      s.bsStep 0 0 = none ∧ s.holdStep 0 0 = none ∧ (s.porch 0).inq = inputs ∧
      pktDrank oldest.2.hdr ≠ s.ownRank ∧ pktAge oldest.2.hdr < (s.porch 0).bsAge) ∧
    (dead (arrived inputs)).productive 0 2 = none ∧
    (let s := arrived inputs
     s.productive 0 2 = some ([0], true) ∧ s.bsStep 0 1 = none ∧ s.holdStep 0 1 = none ∧ [0].find? (s.portOpen 0 1) = some 0 ∧
     ((s.porch 0).port 0).dser.unacked.length + 1 < 128) ∧
    (let s := second (arrived inputs)
     s.productive 0 2 = some ([0], true) ∧ s.bsStep 0 0x8000 = none ∧ s.holdStep 0 0x8000 = none ∧
     [0].find? (s.portOpen 0 0x8000) = none ∧ bridgeLane 0x8000 = none ∧ (List.range 16).find? (s.portOpen 0 0x8000) = some 15 ∧
     ((s.porch 0).port 15).dser.unacked.length + 1 < 128) ∧
    (arrived inputs (List.replicate 7 (pkt 1 2 5 0))).productive 0 2 = some ([0], true) := by decide +kernel

/-- R597, R598: of two packets the older is sent, one hop older; AGE stays at 31. -/
theorem test_router_oldest :
    let t := after (.routerPacketRoute 0 1) (second (arrived [(0, pkt 1 1 5 3), (9, pkt 1 2 6 4)]))
    (t.porch 0).inq = [(0, pkt 1 1 5 3)] ∧
    ((t.porch 0).port 0).dser.unacked.map (fun u => (pktDroom u.2.hdr, pktAge u.2.hdr)) = [(6#7, 5)] := by decide +kernel

/-- A departure of a line for these destinations. -/
def dep (tgt : Nat) (flag : Bool) (copies : List (BitVec 12 × BitVec 7)) (mch : Nat := 0) : Dep :=
  { kind := .line, tgt := tgt, flag := flag, copies := copies, mch := mch, addr := 3071, data := List.replicate 256 6, mask := fullMask,
    poison := 0, tag := 0x1234, hdr := 0, lat := 41 }

/-- `full` with one departure of Room 5, and these trackers. -/
def leaving (d : Dep) (trk : List Tracker := []) : State :=
  full.modRoom 5 fun rm => { rm with out := { rm.out with buf := [d], trk := trk } }

def tracker (drank droom count : Nat) : Tracker := { drank := BitVec.ofNat 12 drank, droom := BitVec.ofNat 7 droom, count := BitVec.ofNat 16 count }

theorem witness_DeparturesLeave :
    (∀ d ∈ [dep 2 false [(4, 5)], dep 2 false [(4, 5), (1, 6)], dep 4 false [(4, 5)] 0x7F],
      ((leaving d).room 5).out.buf = d :: [] ∧ d.tgt ≠ 3 ∧ (d.tgt ≠ 4 ∨ d.mch < 0x80) ∧ ((leaving d).porch (homePorch 5)).rankOk 4 = false) ∧
    (let d := dep 2 true [(2, 5), (3, 95)]
     let s := leaving d [tracker 3 95 1]
     (s.porch (homePorch 5)).rankOk 2 = true ∧ (s.room 5).flagWait d = true) ∧
    (let d := dep 2 false [(2, 5)]
     let s := leaving d ((List.range 16).map fun i => tracker 3 i 1)
     (s.room 5).flagWait d = false ∧ (s.room 5).trkWait d = true) ∧
    (∀ x ∈ [(dep 2 true [(3, 95)], [tracker 3 94 1, tracker 2 95 1]), (dep 2 false [(3, 95), (2, 1)], (List.range 16).map fun i => tracker 3 (80 + i) 1)],
      let s := leaving x.1 x.2
      (s.porch (homePorch 5)).rankOk 3 = true ∧ (s.room 5).flagWait x.1 = false ∧ (s.room 5).trkWait x.1 = false ∧
      (3 : BitVec 12) ≠ s.ownRank ∧ s.productive (homePorch 5) 3 = some ([0], true) ∧
      [0].find? (s.portOpen (homePorch 5) 1) = some 0 ∧ ((s.porch (homePorch 5)).port 0).dser.unacked.length + 1 < 128) ∧
    (let s := leaving (dep 3 false [])
     s.pal.fenced = false ∧ s.smoke.debug = false) ∧
    (∀ mch ∈ [0x80, 0x8F], let d := dep 4 false [] mch
      let x := (leaving d).porch (homePorch 5)
      let ctx := x.coll.toList.getD (d.mch - 0x80) default
      0x80 ≤ d.mch ∧ d.mch < 0x90 ∧ d.kind = .line ∧ bit ctx.entry 0 = false) := by decide +kernel

/-- R613, R614: an unflagged line to rank 3 leaves and is counted; a flagged one waits for its count. -/
theorem test_departure_order :
    ((after (.departureInject 5 1) (leaving (dep 2 false [(3, 95)]) [tracker 3 95 1])).room 5).out.trk = [tracker 3 95 2] ∧
    ((after (.departureInject 5 1) (leaving (dep 2 true [(3, 95)]) [tracker 3 95 1])).room 5).out.trk = [tracker 3 95 1] := by
  decide +kernel

/-- `full` with packets on their way to the Rooms of Porch 0. -/
def crossing (resv : List (Nat × Pkt)) (cross : List Pkt) : State := full.modPorch 0 fun x => { x with resv := resv, cross := cross }

/-- An INC packet for Room 5, latch `n`. -/
def incPkt (n : Nat) : Pkt := barePkt (slotHdr 0 3 0 5 [(97, 6, n)])

def ackEntry (count : Nat) : AckEntry := { srank := 2, sroom := 40, droom := 5, count := count, retried := true }

theorem witness_EjectionsAndAcks :
    (∀ k ∈ [pkt 1 0 5 0, incPkt 47],
      homePorch (roomIdOf (pktDroom k.hdr).toNat) = 0 ∧ (pktDroom k.hdr).toNat < 96 ∧
      (full.room (roomIdOf (pktDroom k.hdr).toNat)).on = true ∧ (pktKind k.hdr ≠ kInc ∨ nbits (pktArg k.hdr).toNat 0 6 ≤ 47) ∧
      (let s := crossing [(5, k)] [pkt 1 0 6 0]
       (s.porch 0).resv.find? (fun e => (s.room (roomIdOf (pktDroom e.2.hdr).toNat)).bufFree) = some (5, k)) ∧
      (let s := crossing [] [k]
       (s.porch 0).resv.find? (fun e => (s.room (roomIdOf (pktDroom e.2.hdr).toNat)).bufFree) = none ∧
       (s.porch 0).cross.find? (fun k => (s.room (roomIdOf (pktDroom k.hdr).toNat)).bufFree &&
         (s.wing (wingOf (roomIdOf (pktDroom k.hdr).toNat))).clockOn) = some k)) ∧
    (∀ n ∈ [1, 255, 300], ((full.modPorch 0 fun x => { x with acks := [{ ackEntry n with droom := 6 }, ackEntry n] }).porch 0).acks.find?
      (fun e => e.srank == 2 && e.sroom == 40 && e.droom == 5) = some (ackEntry n)) ∧
    (∀ n ∈ [4, 5], homePorch 5 = 0 ∧
      ((leaving (dep 2 false []) [tracker 3 94 1, tracker 3 95 n]).room 5).out.trk.filter (fun t => t.drank == 3 && t.droom == 95) =
        [tracker 3 95 n] ∧ ((4#8).toNat < (tracker 3 95 n).count.toNat ∨ (tracker 3 95 n).count = (4#8).zeroExtend 16)) ∧
    (let s := (leaving (dep 2 false []) [tracker 3 95 4]).modRoom 5 fun rm => { rm with frz := [.depart 0x1234] }
     ∃ tag, Frz.depart tag ∈ (s.room 5).frz) := by
  refine ⟨by decide +kernel, by decide +kernel, by decide +kernel, 0x1234, by decide +kernel⟩

/-- R612: an entry's ACK names its count and the retried bit; R613: an ACK of the whole count frees the tracker. -/
theorem test_acks :
    (let s := full.modPorch 0 fun x => { x with acks := [ackEntry 9] }
     ((after (.ackSend 0 2 40 5) s).porch 0).ackOut.map (fun k => (pktDrank k.hdr, pktDroom k.hdr, pktArg k.hdr, pktRetried k.hdr)) =
       [(2#12, 40#7, 9#30, true)]) ∧
    ((after (.ackReceive 5 3 95 4 false) (leaving (dep 2 false []) [tracker 3 95 5, tracker 3 94 4])).room 5).out.trk =
      [tracker 3 95 1, tracker 3 94 4] ∧
    ((after (.ackReceive 5 3 95 5 false) (leaving (dep 2 false []) [tracker 3 95 5, tracker 3 94 4])).room 5).out.trk =
      [tracker 3 94 4] := by decide +kernel

/-! ## Collectives -/

/-- The context of the example: BASE 0, COUNT 4, STRIDE 1, OP SUM, Room 5, two lines, latch 47, generation 254. -/
def collEntry : BitVec 128 :=
  BitVec.ofNat 128 (pack [(0, 1, 1), (16, 13, 4), (32, 12, 1), (44, 7, 5), (56, 6, 1), (64, 6, 47), (72, 8, 254)])

/-- `full` of rank `own`, with context 15 of Porch 0 and these contributions. -/
def collective (own : Nat) (c : CollCtx) (contrib : List Contrib := []) : State :=
  (full.modPorch 0 fun x => { x with cfg := setField x.cfg 0 12 own, contrib := contrib, coll := x.coll.set 15 c }).modPorch 1 fun x =>
    { x with cfg := setField x.cfg 0 12 own }

def ctx (first count : Nat) (insts : List CollInst) : CollCtx := { entry := collEntry, first := first, count := count, insts := insts }
def contribution : Contrib := { ctx := 15, room := 5, tag := 0x1234, line := 3071, data := List.replicate 256 0 }
def collLine (idx : Nat) (own : Option Bytes) (written : Bool) : CollLine :=
  { idx := idx, dest := 3070 + idx, tag := 0x77, own := own, parts := [], sent := false, result := none, written := written }
def ones32 : Bytes := (List.replicate 64 (leBytes 4 0x3F800000)).flatten

theorem witness_CollectivesCombine :
    (∀ own ∈ [0, 2], let s := collective own (ctx 256 513 []) [contribution]
      s.job.stopped = false ∧ (s.porch 0).contrib = contribution :: [] ∧ contribution.ctx < 16 ∧ collValid (s.ctxOf 0 15).entry = true ∧
      collRoom (s.ctxOf 0 15).entry = contribution.room.val ∧ memberOf (s.ctxOf 0 15).entry s.ownRank.toNat = some own ∧
      (s.ctxOf 0 15).count / collLines (s.ctxOf 0 15).entry < (s.ctxOf 0 15).first + 2 ∧ (s.ctxOf 0 15).insts = [] ∧
      children (collCount (s.ctxOf 0 15).entry) own 13 1 ≠ []) ∧
    (let s := collective 0 (ctx 256 516 []) [contribution]
     (s.ctxOf 0 15).first + 2 ≤ (s.ctxOf 0 15).count / collLines (s.ctxOf 0 15).entry) ∧
    (∀ n ∈ [0, 1], let l := collLine 1 (some ones32) false
      let inst := BitVec.ofNat 8 n
      let s := collective 2 (ctx 256 514 [{ no := 256 + inst.toNat, lines := [l] }])
      let c := s.ctxOf 0 15
      ones32.length = 256 ∧ collValid c.entry = true ∧ memberOf c.entry 3 = some 3 ∧ memberOf c.entry s.ownRank.toNat = some 2 ∧
      children (collCount c.entry) 2 13 1 = [3] ∧ c.ahead inst.toNat < 2 ∧
      c.insts = [{ no := c.first + c.ahead inst.toNat, lines := [l] }] ∧ l.idx = (1#6).toNat ∧ l.parts = [] ∧ l.sent = false ∧
      c.lineOf (c.first + c.ahead inst.toNat) (1#6).toNat = some l ∧ l.result = none ∧ collHbm c.entry = false ∧
      (s.room (roomIdOf (collRoom c.entry))).bufFree = true) ∧
    (let i : CollInst := { no := 256, lines := [collLine 0 none true, collLine 1 none true] }
     let c := (collective 0 (ctx 256 515 [i])).ctxOf 0 15
     c.insts = [i] ∧ i.no = c.first + c.ahead (0#8).toNat ∧ c.ahead (0#8).toNat = 0 ∧ i.lines.length = collLines c.entry ∧
     (∀ l ∈ i.lines, l.written = true) ∧ c.count < (c.first + 2) * collLines c.entry) := by decide +kernel

/-- R639: the tree of five members: members 1 and 3 and 4 send first, 2 joins 3, 0 takes 1, then 2, then 4. -/
theorem test_coll_tree :
    (List.range 5).map (fun m => (children 5 m 13 1, parentOf m 13 1)) = [([1, 2, 4], 0), ([], 0), ([3], 0), ([], 2), ([], 0)] ∧
    combineLines 0 ones32 ones32 = (List.replicate 64 (leBytes 4 0x40000000)).flatten := by decide +kernel

/-- R640: the completion of instance 256 adds 1 to latch 47 at generation 254 + 256. -/
theorem test_coll_complete :
    (((after (.collInstanceComplete 0 15 0) (collective 0 (ctx 256 515 [{ no := 256, lines := [collLine 0 none true, collLine 1 none true] }]))).room
      5).pan.buf.map (·.kind)) = [.inc 47 254 1] := by decide +kernel

/-! ## The Stairwell -/

/-- A message of rank 1 with these operands. -/
def msg (a b c : Nat) : StwMsg := { stw 0 with a := BitVec.ofNat 64 a, b := BitVec.ofNat 64 b, c := BitVec.ofNat 64 c }

/-- No subject holds any right. -/
def unprivileged (s : State) : State :=
  { s with thr := { s.thr with boot := { s.thr.boot with img := { s.thr.boot.img with priv := [] } } } }

def job (f : Job → Job) : State := { full with job := f full.job }

theorem witness_JobMessagesAct :
    (∀ js ∈ [JState.configured, .loaded, .running, .done, .faulted],
      StwDue (inState js) (stw 0) (some rStop) ∧ StwDue (inState js) (stw 0) (some rStart) ∧
      (inState js).job.js = js ∧ (∀ w, ((inState js).wing w).fstop = none) ∧ (inState js).job.frozen = false ∧ (inState js).job.pend = 0) ∧
    (let s := job fun j => { j with pend := 2, pendStick := 7 }
     StwDue s (msg 7 0 0) (some rStop) ∧ s.job.js = .running ∧ s.job.frozen = false ∧ s.job.pend = 2) ∧
    (StwDue (unprivileged full) (stw 0) none ∧ (unprivileged full).granted 4 (stw 0).src.toNat rStop = false) ∧
    (full.thr.clk.jclk ≤ (msg 9 5000 1).b ∧ (msg 9 4999 1).b < full.thr.clk.jclk) ∧
    (∀ o ∈ [Origin.companion, .board, .debug, .rank 3, .self],
      full.gbRoom = true ∧ full.preBoot = false ∧ full.may o rMgmtWrite = true ∧ full.may o rStop = true) := by
  refine ⟨?_, ⟨stwDue_of (by decide +kernel), by decide +kernel⟩, ⟨stwDue_of (by decide +kernel), by decide +kernel⟩, by decide +kernel,
    by decide +kernel⟩
  simp only [List.forall_mem_cons, List.not_mem_nil, false_implies, implies_true, and_true]
  refine ⟨?_, ?_, ?_, ?_, ?_⟩ <;> exact ⟨stwDue_of (by decide +kernel), stwDue_of (by decide +kernel), by decide +kernel⟩

/-- R804, R811: a QUIESCE of tick 9 is pending and, at tick 9, late; one without the right changes no job. -/
theorem test_quiesce :
    let s := job fun j => { j with stick := 9 }
    let t := after (.stwQuiesce (msg 9 0 0)) s
    (t.job.pend, t.job.pendStick, t.thr.stw.late) = (1#2, 9#64, true) ∧
    (after (.stwQuiesce (msg 10 0 0)) s).thr.stw.late = false ∧ (after (.stwQuiesce (msg 9 0 0)) (unprivileged s)).job = s.job := by
  decide +kernel

/-- `full` in real-time mode, its clock with these values. -/
def realTime (f : Clock → Clock) : State :=
  let s := job fun j => { j with rt := true, tick := 7 }
  { s with thr := { s.thr with clk := f s.thr.clk } }

theorem witness_AlignmentKeepsStep :
    (∀ s ∈ [inState .loaded, realTime id], StwDue s (msg 100 20 0) (some rStart) ∧ (s.job.js = .running → s.job.rt = true)) ∧
    (∀ x ∈ [(false, true, 5000), (false, true, 5001), (true, true, 5001)],
      let s := realTime fun k => { k with outOfStep := x.1, refOk := x.2.1 }
      StwDue s (msg 7 x.2.2 0) (some rStart) ∧ s.job.js = .running ∧ s.job.rt = true ∧ s.thr.clk.tickSet = none ∧
      s.thr.clk.outOfStep = x.1 ∧ (x.1 = true → s.thr.clk.refOk = true)) ∧
    (let s := realTime id
     (s.jclkLast : Int) = ((msg 7 5000 0).b.toNat : Int) + ((s.job.tick.toNat : Int) - ((msg 7 5000 0).a.toNat : Int)) * (max s.tickRc 1 : Nat) ∧
     ¬ (s.jclkLast : Int) = ((msg 7 5001 0).b.toNat : Int) + ((s.job.tick.toNat : Int) - ((msg 7 5001 0).a.toNat : Int)) * (max s.tickRc 1 : Nat)) ∧
    StwDue full (stw 0) none ∧ (∀ q, swf (full.porch q).entries = true) ∧ full.job.js = .running ∧ full.thr.stw.peer = none := by
  refine ⟨?_, ?_, by decide +kernel, stwDue_of (by decide +kernel), by decide +kernel⟩
  · simp only [List.forall_mem_cons, List.not_mem_nil, false_implies, implies_true, and_true]
    refine ⟨?_, ?_⟩ <;> exact ⟨stwDue_of (by decide +kernel), by decide +kernel⟩
  · simp only [List.forall_mem_cons, List.not_mem_nil, false_implies, implies_true, and_true]
    refine ⟨?_, ?_, ?_⟩ <;> exact ⟨stwDue_of (by decide +kernel), by decide +kernel⟩

/-- R629, R630: an estimate of 100 rc and 20 sixty-fourths gives 100 and the residual 20, which is too large. -/
theorem test_align :
    (let t := after (.stwAlign (msg 100 19 0) 1) (inState .loaded)
     (t.thr.clk.jclkSet, t.thr.clk.residual, t.thr.clk.aligned) = (some 100#64, 19#8, true)) ∧
    (let t := after (.stwAlign (msg 100 44 0) 1) (inState .loaded)
     (t.thr.clk.jclkSet, t.thr.clk.residual, t.thr.clk.alignFail) = (some 101#64, (-20 : BitVec 8), true)) := by decide +kernel

/-- The map of `full` open or closed, its rank the root, with what the Stairwell holds. -/
def mapping (isOpen : Bool) (nranks : Nat) (f : Stw → Stw) (p : Porch → Porch := id) : State :=
  let g (x : Porch) : Porch := p { x with cfg := setField (setField x.cfg 69 1 (b2n isOpen)) 12 13 nranks }
  let s : State := { full with fab := { full.fab with porches := full.fab.porches.map g } }
  { s with thr := { s.thr with stw := f s.thr.stw } }

/-- The reports of four ranks whose totals agree or, by one packet, do not. -/
def reported (n : Nat) : List (BitVec 12 × BitVec 64 × BitVec 64) := [(0, 5, 5), (1, 5, 5), (2, 5, 5), (3, 5, BitVec.ofNat 64 n)]

theorem witness_TheMapOpensWhenDrained :
    StwDue full (stw 0) (some rRankMap) ∧ StwDue full (stw 0) none ∧
    (∀ reps ∈ [[(0, 5, 5)], (reported 5).filter (·.1 ≠ 1)], let s := mapping false 4 fun w => { w with draining := true, reports := reps }
      StwDue s (msg 5 5 0) none ∧ s.thr.stw.draining = true ∧ ∀ r ∈ s.thr.stw.reports, r.1 ≠ (msg 5 5 0).src) ∧
    (let s := mapping false 1 id
     s.preBoot = false ∧ (s.porch 0).mapOpen = false ∧ s.gbRoom = true ∧ (s.porch 0).nranks = 1 ∧ s.totals.1 = s.totals.2 ∧
     (s.porch 0).quiet = true ∧ (s.porch 1).quiet = true) ∧
    (let s := mapping false 1 id fun x => { x with injected := 5, ejected := 4 }
     s.preBoot = false ∧ (s.porch 0).mapOpen = false ∧ s.gbRoom = true ∧ (s.porch 0).nranks = 1 ∧ s.totals.1 ≠ s.totals.2) ∧
    (let s := mapping false 4 id
     s.preBoot = false ∧ (s.porch 0).mapOpen = false ∧ s.gbRoom = true ∧ (s.porch 0).nranks ≠ 1 ∧ s.ownRank = (s.porch 0).root ∧
     s.thr.stw.draining = false) ∧
    (∀ x ∈ [(5, some (20#64, 20#64)), (4, some (20, 19)), (5, none), (5, some (20, 19))],
      let s := mapping false 4 fun w => { w with draining := true, reports := reported x.1, former := x.2, drainAt := 700000 }
      s.thr.stw.draining = true ∧ (s.porch 0).ranks.length ≤ s.thr.stw.reports.length ∧ s.thr.stw.drainAt ≤ s.rc ∧
      s.ownRank = (s.porch 0).root ∧ (s.porch 0).nranks ≠ 1) ∧
    StwDue (mapping true 4 id) (stw 0) (some rRankMap) ∧ ((mapping true 4 id).porch 0).mapOpen = true ∧
    ({ stw 0 with src := 0 } : StwMsg).src = (mapping true 4 id).ownRank ∧ (mapping true 4 id).gbRoom = true := by
  refine ⟨stwDue_of (by decide +kernel), stwDue_of (by decide +kernel), ?_, by decide +kernel, by decide +kernel, by decide +kernel,
    by decide +kernel, stwDue_of (by decide +kernel), by decide +kernel⟩
  intro reps h
  simp only [List.mem_cons, List.not_mem_nil, or_false] at h
  have none_of : ∀ s : State, (s.thr.stw.reports.all fun r => r.1 != (msg 5 5 0).src) = true →
      ∀ r ∈ s.thr.stw.reports, r.1 ≠ (msg 5 5 0).src := fun s hs r hr => by
    have := List.all_eq_true.mp hs r hr
    simpa using this
  rcases h with rfl | rfl <;>
    exact ⟨stwDue_of (by decide +kernel), by decide +kernel, none_of _ (by decide +kernel)⟩

/-- R592: the map opens in both Porches after the second of two equal collections, and after no other. -/
theorem test_map_opens :
    [(5, some (20#64, 20#64)), (4, some (20#64, 19#64)), (5, none)].map (fun x =>
      let t := after .mapDrainCheck (mapping false 4 fun w =>
        { w with draining := true, reports := reported x.1, former := x.2, drainAt := 700000 })
      ((t.porch 0).mapOpen, (t.porch 1).mapOpen)) = [(true, true), (false, false), (false, false)] := by decide +kernel

/-- Room 5 of `full` waits for credit on a channel to Room `room`, of this package or of a rank. -/
def waitingFor (tgt rank room : Nat) : State := full.modRoom 5 fun rm =>
  let d : SendDest := { rank := BitVec.ofNat 12 rank, room := BitVec.ofNat 7 room, cred := 0, wmir := 0 }
  let ch : SendChan := { tgt := tgt, mslot := 1, mch := 0, runits := 64, seq := 0, dests := [d] }
  { rm with frz := [.credit 0x77 0], probeAt := 200000, comm := { rm.comm with sends := [ch] } }

/-- Rank 1 probes Room 5 from its Room `from_`. -/
def probe (from_ : Nat) : StwMsg := msg (5 + 2 ^ 8 * from_) 0 0

/-- A response to broadcast number 9 of SOP `sop`, with status `st`. -/
def response (sop st : Nat) (b : Nat := 0) : StwMsg := msg (sop + 2 ^ 8 * 9 + 2 ^ 24 * st) b 0

theorem witness_OtherPackagesReadAndProbe :
    StwDue full (stw 0) (some rMgmtRead) ∧
    (StwDue full (stw 0) none ∧ full.may (.rank 1) rMgmtRead = true ∧ full.may (.rank 1) rGbRead = true ∧
      ∀ n ∈ [1, 28], 1 ≤ (msg 0x40 n 0).b.toNat ∧ (msg 0x40 n 0).b.toNat ≤ 28) ∧
    (let s := waitingFor 2 1 40
     StwDue s (probe 40) none ∧ s.waitsFor 5 1 40 = some 0x77 ∧ s.waitsFor 5 1 41 = none ∧
     roomIdOf (field (probe 40).a 0 7) = 5 ∧ field (probe 40).a 8 7 = 40) ∧
    (let s := mapping false 4 fun w => { w with lastSop := 5, lastSeq := 9, probes := [(9, 5)] }
     ∀ m ∈ [response 5 0, response 5 1, response 0x11 0 0, response 0x11 0 1],
       StwDue s m none ∧ (field m.a 0 8 = s.thr.stw.lastSop.toNat ∨ field m.a 0 8 = 0x11) ∧ m.a.extractLsb' 8 16 = s.thr.stw.lastSeq ∧
       s.thr.stw.probes.find? (fun p => p.1 == m.a.extractLsb' 8 16) = some (9, 5)) ∧
    (∀ x ∈ [(0, 40), (0, 6), (2, 6)], let s := waitingFor x.1 3 x.2
      (s.room 5).creditWaits = [(0x77, 0)] ∧ (s.room 5).probeAt + s.mailWatch ≤ s.rc ∧
      (s.room 5).comm.sends[0]?.map (·.dests.length) = some 1 ∧ s.waitsFor (roomIdOf x.2) s.ownRank 5 = none) ∧
    wingOf (roomIdOf 40) ≠ wingOf 5 ∧ wingOf (roomIdOf 6) = wingOf 5 := by
  refine ⟨stwDue_of (by decide +kernel), ⟨stwDue_of (by decide +kernel), by decide +kernel⟩, ⟨stwDue_of (by decide +kernel), by decide +kernel⟩,
    ?_, by decide +kernel⟩
  intro s m h
  simp only [List.mem_cons, List.not_mem_nil, or_false] at h
  rcases h with rfl | rfl | rfl | rfl <;> exact ⟨stwDue_of (by decide +kernel), by decide +kernel⟩

/-- R561, R562: two Rooms that wait for each other's credit are a deadlock: class 1, the tag of the credit wait. -/
theorem test_probe_deadlock :
    let s := waitingFor 2 1 40
    (after (.stwProbe (probe 40)) s).flt.queue.map (fun r => (r.code, r.cls, r.tag)) = [(0x6017#16, 1#2, 0x77#16)] ∧
    (after (.stwProbe (probe 41)) s).flt.queue = [] := by decide +kernel

/-! ## The management space -/

/-- The hypotheses about an access of an origin with these rights. -/
def mayDo (s : State) (o : Origin) (rights : List Nat) : Bool := s.gbRoom && !s.preBoot && rights.all fun r => s.may o r

def d64 (fs : List (Nat × Nat × Nat)) : BitVec 64 := BitVec.ofNat 64 (pack fs)

theorem witness_ManagementAccessesAct :
    (∀ o ∈ [Origin.companion, .board, .debug, .rank 3], PortDue full o [rMgmtWrite] ∧ PortDue full o [rMgmtRead, rGbRead] ∧
      PortDue full o [rMgmtWrite, rGbRead, rGbMark]) ∧
    (∀ r ∈ [0, 95], (full.room (roomIdOf r)).on = true ∧ r < full.enabledRooms) ∧
    (PortDue (unprivileged full) .companion [] ∧ (unprivileged full).may .companion rMgmtWrite = false) ∧
    (∀ x ∈ [(JState.configured, true), (.loaded, false), (.done, true), (.faulted, false), (.loading, true), (.running, true), (.draining, false)],
      let s : State := { inState x.1 with smoke := { Smoke.reset with debug := !x.2 } }
      PortDue s .debug [rMgmtWrite, rDebug] ∧ s.smoke.debug = !x.2 ∧ s.job.js = x.1 ∧ bit (d64 [(0, 1, b2n x.2), (8, 8, 0xFF)]) 0 = x.2) ∧
    (let s := inState .configured
     PortDue s .companion [rMgmtWrite] ∧ s.job.js = .configured ∧ s.mir.enable = false ∧
     ∀ p ∈ [31, 1], let d := d64 [(0, 1, 1), (1, 5, p)]
       bit d 0 = true ∧ ((s.porch (porchOf (Fin.ofNat 32 (field d 1 5)))).port (portIn (Fin.ofNat 32 (field d 1 5)))).enable = false) ∧
    ({ upOf 0 false with mirror := true }.trained = true ∧ { upOf 0 false with mirror := true }.rtt ≤ 112) ∧
    full.job.js ≠ .configured ∧ full.mir.enable = false := by
  have h : ∀ x ∈ [(JState.configured, true), (.loaded, false), (.done, true), (.faulted, false), (.loading, true), (.running, true), (.draining, false)],
      mayDo { inState x.1 with smoke := { Smoke.reset with debug := !x.2 } } .debug [rMgmtWrite, rDebug] = true := by decide +kernel
  have hd : ∀ x ∈ [(JState.configured, true), (.loaded, false), (.done, true), (.faulted, false), (.loading, true), (.running, true), (.draining, false)],
      ({ inState x.1 with smoke := { Smoke.reset with debug := !x.2 } } : State).job.js = x.1 ∧
      bit (d64 [(0, 1, b2n x.2), (8, 8, 0xFF)]) 0 = x.2 := by decide +kernel
  have ho : ∀ o ∈ [Origin.companion, .board, .debug, .rank 3], mayDo full o [rMgmtWrite] && mayDo full o [rMgmtRead, rGbRead] &&
      mayDo full o [rMgmtWrite, rGbRead, rGbMark] = true := by decide +kernel
  refine ⟨fun o m => ?_, by decide +kernel, ⟨portDue_of (by decide +kernel), by decide +kernel⟩,
    fun x m => ⟨portDue_of (h x m), rfl, hd x m⟩, ⟨portDue_of (by decide +kernel), by decide +kernel⟩, by decide +kernel⟩
  have hx := ho o m
  simp only [Bool.and_eq_true, decide_eq_true_eq] at hx
  exact ⟨portDue_of hx.1.1, portDue_of hx.1.2, portDue_of hx.2⟩

/-- R734: READ_MARK moves from 3 to a mark in 3 .. COUNT and to no other. R768: RUNNING admits no change of debug mode. -/
theorem test_read_mark :
    (let s : State := { full with thr := { full.thr with guest := { Guest.reset with count := 9, readMark := 3 } } }
     [2, 3, 9, 10].map (fun m => (after (.gbReadMarkWrite .companion (d64 [(0, 48, m)])) s).thr.guest.readMark) = [3#48, 3#48, 9#48, 3#48]) ∧
    (after (.debugEnter .debug 1) full).smoke.debug = false ∧ (after (.debugEnter .debug 1) (inState .loaded)).smoke.debug = true := by
  decide +kernel

/-- An open or closed map in CONFIGURED, and the staged words of an entry. -/
def tables (isOpen : Bool) (a b : Option (BitVec 64)) : State :=
  let s := mapping isOpen 4 id fun x => { x with stage0 := a, stage1 := b }
  { s with job := { s.job with js := .configured } }

/-- The host configuration of 64 slots from the companion's first slot page, the Doorplate after the last slot. -/
def hostOn (on : Bool) (plate : Nat) : State :=
  let s := inState .configured
  { s with pal := { s.pal with cfg := BitVec.ofNat 128 (pack [(0, 1, b2n on), (70, 42, plate)]) } }

/-- HOST_CFG word 0: ENABLE, 64 slots, the first slot page. -/
def hostWord (on : Bool) : BitVec 64 := d64 [(0, 1, b2n on), (1, 6, 63), (8, 40, compBase / 256)]

theorem witness_TablesAndHostConfiguration :
    (∀ s ∈ [tables true (some (collEntry.extractLsb' 0 64)) (some (collEntry.extractLsb' 64 64)),
        tables true (some 7) (some 0), tables true none (some 0), tables true (some 0) none,
        tables false (some (collEntry.extractLsb' 0 64)) (some (collEntry.extractLsb' 64 64))],
      ∀ p : PorchId, mayDo s .companion [rMgmtWrite, rRankMap] = true ∧ bit s.thr.pwr.porch p.val = true ∧
        ∀ q, swf (s.porch q).entries = true) ∧
    (tables true none none).mapWritable = true ∧ (tables false none none).mapWritable = false ∧
    (∀ p, ((tables true none none).porch p).ctxBad collEntry = false ∧ ((tables true none none).porch p).ctxBad 7 = true ∧
      BitVec.ofNat 128 ((collEntry.extractLsb' 0 64).toNat + 2 ^ 64 * (collEntry.extractLsb' 64 64).toNat) = collEntry) ∧
    (∀ s ∈ [hostOn false 0, hostOn true 0, full, inState .loading, inState .loaded, inState .draining],
      PortDue s .companion [rMgmtWrite] ∧ s.thr.pwr.palbo = true) ∧
    (let top := compBase / 64 + 256
     (∀ plate ∈ [top, compBase / 64 - 1, top - 1, 0x070000000000 / 64],
       bit (hostWord true) 0 = true ∧ bit (hostOn false plate).pal.cfg 0 = false ∧
       hostCfgBad (setField (hostOn false plate).pal.cfg 0 48 (field (hostWord true) 0 48)) = decide (plate ≠ top))) ∧
    bit (hostWord false) 0 = false ∧ bit (hostOn true 0).pal.cfg 0 = true ∧ (hostOn false 0).pal.fenced = false := by
  refine ⟨by decide +kernel, by decide +kernel, by decide +kernel, by decide +kernel, ?_, by decide +kernel, by decide +kernel⟩
  have h : ∀ s ∈ [hostOn false 0, hostOn true 0, full, inState .loading, inState .loaded, inState .draining],
      mayDo s .companion [rMgmtWrite] && s.thr.pwr.palbo = true := by decide +kernel
  intro s m
  have hx := h s m
  simp only [Bool.and_eq_true, decide_eq_true_eq] at hx
  exact ⟨portDue_of hx.1, hx.2⟩

/-- R787: word 0 alone changes no context; the commit writes the entry in both Porches. R671: a Doorplate among the slots is CFG_BAD. -/
theorem test_coll_commit :
    (let s := tables true (some (collEntry.extractLsb' 0 64)) (some (collEntry.extractLsb' 64 64))
     let t := after (.collEntryCommit .companion 1 15) s
     ((t.ctxOf 0 15).entry, (t.ctxOf 1 15).entry, (t.ctxOf 0 14).entry, (t.porch 1).stage0) = (collEntry, collEntry, 0, none)) ∧
    (after (.collEntryStage .companion 1 false 7) (tables true none none)).porch 0 = (tables true none none).porch 0 ∧
    [compBase / 64 + 256, compBase / 64 + 255].map (fun p =>
      let t := after (.hostCfgEnable .companion (hostWord true)) (hostOn false p)
      (t.pal.enabled, bit t.pal.cfg 7)) = [(true, false), (false, true)] := by decide +kernel

/-- `full` with its management ports changed. -/
def ports (f : Ports → Ports) (s : State := full) : State := { s with thr := { s.thr with ports := f s.thr.ports } }

theorem witness_SidePortsAnswer :
    full.thr.ports.i3cDyn = none ∧ (ports fun p => { p with i3cDyn := some 9 }).thr.ports.i3cDyn = some 9 ∧
    (let s := ports fun p => { p with i3cDyn := some 9 }
     s.gbRoom = true ∧ s.preBoot = false ∧ s.may .board rMgmtRead = true ∧ s.may .board rMgmtWrite = true) ∧
    full.debugAllow = true ∧ full.thr.ports.testBusy = false ∧ full.gbRoom = true ∧ full.preBoot = false ∧
    full.may .debug rMgmtRead = true ∧ full.may .debug rMgmtWrite = true ∧
    (ports fun p => { p with testBusy := true }).thr.ports.testBusy = true ∧ (ports fun p => { p with testBusy := true }).debugAllow = true ∧
    State.reset.debugAllow = false := by decide +kernel

/-- R793: a read of THRESH_TICK and the private read that fetches its answer. -/
theorem test_i3c_read :
    let s := ports (fun p => { p with i3cDyn := some 9 }) (job fun j => { j with tick := 0x1122 })
    let t := after .i3cPrivateRead (after (.i3cReadRequest (1 :: leBytes 6 (thrAddr 0x40))) s)
    t.thr.ports.i3cOut = [0, 0x22, 0x11, 0, 0, 0, 0, 0, 0] := by decide +kernel

/-! ## The logs and mirror mode -/

def report (code cls : Nat) (lost : Bool) : Report :=
  { code := BitVec.ofNat 16 code, cls := BitVec.ofNat 2 cls, lroom := 5, wing := 0, src := 0, tag := 0x77, body := [1], lost := lost }

/-- `full` with this report waiting, and one of code 0x2005 of Room 5 as entry `n`. -/
def faulting (rp : Report) (n : Nat) : State :=
  { full with flt := { Faults.reset with
    queue := [rp], count := BitVec.ofNat 48 n
    log := sput [] (n % 1024) (BitVec.ofNat 1024 (pack [(0, 48, n), (48, 16, 0x2005), (224, 7, 5), (240, 16, 0x77), (256, 16, 0xFFFE)])) } }

/-- A Guestbook with `n` entries, read to `mark`, and one event waiting. -/
def guestbook (n mark : Nat) : State :=
  let e : GbEvent := { (default : GbEvent) with event := 4, parts := 1 }
  { full with thr := { full.thr with guest := { Guest.reset with
    booted := true, count := BitVec.ofNat 48 n, readMark := BitVec.ofNat 48 mark, queue := [e], nextAt := 700000 } } }

theorem witness_LogsGrow :
    (∀ x ∈ [(report 0x2006 0 false, 0, false), (report 0x2006 1 false, 1023, false), (report 0x2006 2 false, 1024, false),
        (report 0x2005 3 false, 0, false), (report 0x2005 0 false, 1024, true), (report 0x2005 0 true, 3, true), (report 0x2006 0 true, 3, false)],
      let s := faulting x.1 x.2.1
      s.flt.queue = x.1 :: [] ∧ swf s.flt.log = true ∧ s.job.js = .running ∧ s.repeats x.1 = x.2.2) ∧
    (full.thr.guest.booted = false) ∧
    (let s := guestbook 0 0
     let t : State := { s with rc := 699999 }
     t.rc < t.thr.guest.nextAt ∧ s.thr.guest.nextAt ≤ s.rc) ∧
    (∀ x ∈ [(4095, 0), (4096, 1), (4096, 0)], let g := (guestbook x.1 x.2).thr.guest
      g.booted = true ∧ g.queue.map (fun e => (e.parts, e.event)) = [(1, 4)] ∧
      (g.count.toNat + 1 ≤ 4096 ∨ g.count.toNat + 1 - 4096 ≤ g.readMark.toNat ∨ g.readMark.toNat < g.count.toNat + 1 - 4096)) ∧
    (let s : State := { full with smoke := { Smoke.reset with queue := [5] } }
     s.smoke.queue = 5 :: []) := by decide +kernel

/-- R749, R750: a repeat of the last report counts up to 0xFFFF; a class 1 report makes the job FAULTED. -/
theorem test_fault_log :
    (let t := after .faultReportArrive (faulting (report 0x2005 0 false) 1024)
     (t.flt.count, field (sget t.flt.log 0) 256 16) = (1024#48, 0xFFFF)) ∧
    (let t := after .faultReportArrive (faulting (report 0x2006 1 false) 1024)
     (t.flt.count, field (sget t.flt.log 1) 48 16, t.job.js, t.flt.held) = (1025#48, 0x2006, .faulted, false)) := by decide +kernel

def mrec (lines : Nat) (crc : Nat) : MirrorRec :=
  { stick := 3, w := 0, lroom := 5, lines := BitVec.ofNat 12 lines, crc := BitVec.ofNat 64 crc, tick := 9 }

/-- `full` in mirror mode on port 31, with its records. -/
def mirrored (f : Mirror → Mirror := id) : State :=
  let s := full.modPorch 1 fun x => x.modPort 15 fun q => { q with enable := true, mirror := true, downSince := 100000 }
  { s with mir := f { Mirror.reset with enable := true, port := 31 } }

def logEntry (tag off : Nat) : MirrorLogEntry := { tag := BitVec.ofNat 16 tag, offset := BitVec.ofNat 10 off, output := 0, crc := 0 }

theorem witness_MirrorCompares :
    (let s := (mirrored).modRoom 5 fun rm => { rm with seq := { rm.seq with issuing := false, doneAt := 901 } }
     s.mir.enable = true ∧ s.job.js = .running ∧ (s.room 5).on = true ∧ s.windowOver 5 = true ∧ s.mir.twin = [] ∧
     s.mir.own.length < 8192) ∧
    (∀ m ∈ [mrec 2 7, mrec 3 7, mrec 2 8], let s := mirrored fun x => { x with own := [mrec 2 7] }
      s.mir.own.find? (fun y => y.stick == m.stick && y.w == m.w && y.lroom == m.lroom) = some (mrec 2 7) ∧ s.mir.stopTick = 0) ∧
    (mirrored).mir.own = [] ∧ (mirrored).mir.twin.length < 8192 ∧
    8192 ≤ (mirrored fun x => { x with twin := List.replicate 8192 (mrec 2 7) }).mir.twin.length ∧
    ((mirrored).mirrorPort.live = false ∧ (mirrored).mirrorPort.lost = false ∧
      (mirrored).mirrorPort.downSince + (mirrored).linkLost ≤ (mirrored).rc) ∧
    (let s := (mirrored fun x => { x with bad := some (mrec 2 7, mrec 2 8) }).modRoom 5 fun rm =>
       { rm with mirror := { rm.mirror with log := [(2, 0, logEntry 1 1), (3, 0, logEntry 1 1), (3, 0, logEntry 2 1023)] } }
     s.mir.bad = some (mrec 2 7, mrec 2 8) ∧
     (let log := (s.room (Fin.ofNat 96 (mrec 2 7).lroom.toNat)).mirror.log
      let mine := (log.filter fun e => e.1 == (mrec 2 7).stick && e.2.1 == (mrec 2 7).w.toNat).map (·.2.2)
      mine.length = (mrec 2 7).lines.toNat ∧ mine[1]? = some (logEntry 2 1023) ∧
      ([logEntry 1 1, logEntry 2 1022] : List MirrorLogEntry)[1]? ≠ some (logEntry 2 1023) ∧
      ∀ j, j < 1 → mine[j]? = ([logEntry 1 1, logEntry 2 1022] : List MirrorLogEntry)[j]?)) := by decide +kernel

/-- R764, R765: unequal records set STOP_TICK two ticks past the later of both. -/
theorem test_mirror_mismatch :
    let t := after (.mirrorRecordReceive (mrec 2 8)) (mirrored fun x => { x with own := [mrec 2 7] })
    (t.mir.mismatch, t.mir.stopTick, t.mir.own) = (true, 11#64, []) := by decide +kernel

/-! ## Power, boot and the clocks -/

/-- Boot with these NVM devices and rails: every column and stack passes, no port trains. -/
def bootIn (a : Option Nvm) (rails : BitVec 4) : BootIn :=
  { puf := [], nvmA := a, nvmB := none, railsOk := rails, wingsOk := true, roomPass := Vector.replicate 4 (BitVec.allOnes 26),
    trained := 0xFF, ports := Vector.replicate 32 default, palboUp := true }

def padTo (n : Nat) (bs : Bytes) : Bytes := bs ++ List.replicate (n - bs.length) 0

/-- The entry of a block in the directory, its hash zero. -/
def blkEntry (typ off len : Nat) : Bytes := padTo 96 (leBytes 2 typ ++ List.replicate 6 0 ++ leBytes 8 off ++ leBytes 4 len)

/-- A configuration image of eight blocks: one DVFS ratio 25, one entry in each throttle table, one privilege, one rank. -/
def nvm : Nvm :=
  let header := padTo 128 (leBytes 4 0x4643584D ++ leBytes 2 1 ++ leBytes 2 8 ++ leBytes 8 3 ++ leBytes 8 10036)
  let dir := blkEntry 1 5632 64 ++ blkEntry 2 5888 8 ++ blkEntry 3 6144 4 ++ blkEntry 4 6400 4 ++ blkEntry 5 6656 32 ++
    blkEntry 6 6912 2592 ++ blkEntry 7 9728 8 ++ blkEntry 8 9984 52
  let pwrseq := leBytes 8 0 ++ leBytes 8 1 ++ leBytes 8 2 ++ leBytes 8 3
  { image := [padTo 5632 (header ++ dir), padTo 256 (leBytes 64 image.param.toNat), padTo 256 (leBytes 8 25),
      padTo 256 (leBytes 4 1600), padTo 256 (leBytes 4 4000), padTo 256 pwrseq, List.replicate 2816 0,
      padTo 256 (leBytes 8 (pack [(0, 4, 1), (32, 16, 0x80)])),
      leBytes 16 (pack [(12, 13, 1), (64, 5, 16)]), List.replicate 32 0, leBytes 4 (2 ^ 24)].flatten
    helper := [] }

/-- Where SHA3-512 is zero and every signature verifies, this image is used: the free functions leave such a world open. -/
theorem witness_PowerComesAndGoes_image (hs : ∀ bs, Config.sha3 bs = 0) (hv : ∀ k m c g, Config.mldsaVerify k m c g = true) :
    (cfgSelect (some nvm) none).use.isSome = true := by
  unfold cfgSelect cfgCandidate cfgLoad
  simp only [hs, hv]
  decide +kernel

/-- The device of a boot that waits for the Wing rails. -/
def waiting : State :=
  { full with
    job := { Job.reset with js := .selfTest }
    thr := { full.thr with boot := { full.thr.boot with parked := some (bootIn none 0xF), step := 4 } } }

theorem witness_PowerComesAndGoes :
    full.thr.pwr.porst = true ∧ State.reset.thr.pwr.porst = false ∧
    (cfgSelect (bootIn none 0xF).nvmA (bootIn none 0xF).nvmB).use = none ∧
    (bootIn none 0xF).railsOk = 0xF ∧ (bootIn none 0xF).wingsOk = true ∧ bit (bootIn none 0xE).railsOk 0 = false ∧
    waiting.thr.boot.parked = some (bootIn none 0xF) ∧ waiting.thr.boot.step = 4 ∧ waiting.job.js = .selfTest ∧
    full.thr.boot.parked = none ∧ full.thr.pwr.thermTrip = false ∧
    (1759#16).toInt < 110 * 16 ∧ 110 * 16 ≤ (1760#16).toInt := by
  refine ⟨by decide +kernel, by decide +kernel, ?_, by decide +kernel⟩
  rfl

/-- R739: without an image the device ends in FAULTED with its domains off. R681: with the Wing rails good it is CONFIGURED with 96 Rooms. -/
theorem test_boot :
    (let t := after (.powerUp (bootIn none 0xF)) State.reset
     (t.job.js, t.thr.pwr.porch, t.flt.lastCode) = (.faulted, 0, 0x9002#16)) ∧
    (let t := after .bootRailWaitDone waiting
     (t.job.js, t.enabledRooms, (t.room 95).on, (t.wing 3).m) = (.configured, 96, true, 25)) := by decide +kernel

/-- `full` with one operating point of 400 W at ratio 20, and Wing 0 changed. -/
def throttled (f : Wing → Wing) : State :=
  let s : State := { full with thr := { full.thr with boot := { full.thr.boot with img := { image with
    dvfs := [BitVec.ofNat 64 (pack [(0, 5, 20), (8, 12, 800), (24, 16, 400)])] } } } }
  s.modWing 0 f

def therm0 : BitVec 32 := BitVec.ofNat 32 (pack [(0, 12, 1600), (12, 8, 64)])
def therm1 : BitVec 32 := BitVec.ofNat 32 (pack [(0, 12, 1680), (12, 8, 128)])

/-- A Clock without its reference. -/
def lossAt (n : Nat) : State :=
  { full with thr := { full.thr with clk := { full.thr.clk with refOk := false, holdover := true, holdRc := BitVec.ofNat 24 n } } }

theorem witness_ReferenceAndThrottle :
    full.thr.clk.refOk = true ∧ (lossAt 7).thr.clk.refOk = false ∧ (lossAt 7).thr.clk.holdover = true ∧
    (lossAt 7).thr.clk.stopAll = false ∧ (lossAt 99999).thr.clk.holdRc.toNat < 100000 ∧ 100000 ≤ (lossAt 100000).thr.clk.holdRc.toNat ∧
    bit full.thr.pwr.spine 3 = true ∧
    (let s := throttled id
     (s.wing 0).entryT = 0 ∧ s.thr.boot.img.therm = [therm0, therm1] ∧ s.thr.boot.img.therm = [therm0] ++ [therm1] ∧
     (1599#16).toInt < (field therm0 0 12 : Int) ∧ (1599#16).toInt < (field therm1 0 12 : Int) ∧ (field therm1 0 12 : Int) ≤ (1680#16).toInt ∧
     (s.wing 0).entryT ≤ s.thr.boot.img.therm.length ∧ 399999 < 1000 * field (s.dvfsOf (s.wing 0).m) 24 16) ∧
    (let s := throttled fun g => { g with entryT := 1 }
     s.thr.boot.img.therm = [] ++ [therm0] ++ [therm1] ∧ (s.wing 0).entryT = ([] : List (BitVec 32)).length + 1 ∧
     (field therm0 0 12 : Int) < (1569#16).toInt + 32 ∧ (field therm0 0 12 : Int) < (1679#16).toInt + 32 ∧
     (1679#16).toInt < (field therm1 0 12 : Int)) ∧
    (∀ x ∈ [(512, false, false), (511, true, false), (511, false, true), (511, false, false)],
      let s := throttled fun g => { g with strTick := x.1, curStr := x.2.1, prevStr := x.2.2 }
      (s.wing 0).clockOn = true ∧ (s.wing 0).active = true ∧ (s.wing 0).strTick = x.1 ∧ ((s.wing 0).curStr, (s.wing 0).prevStr) = x.2) ∧
    ((inState .draining).job.js = .draining ∧ (inState .draining).drained = true ∧
      ({ leaving (dep 2 false [(2, 5)]) with job := { full.job with js := .draining } } : State).drained = false) := by
  decide +kernel

/-- R119, R122: 100 °C reaches the first entry, 98 °C leaves it after 2 °C of hysteresis, 105 °C reaches the second. -/
theorem test_throttle :
    [(0, 1599), (0, 1600), (1, 1569), (1, 1568), (1, 1680), (2, 1649)].map (fun x =>
      ((after (.throttleEval 0 (BitVec.ofNat 16 x.2) 0) (throttled fun g => { g with entryT := x.1 })).wing 0).dutyT) =
      [0#8, 64#8, 64#8, 0#8, 128#8, 128#8] := by decide +kernel

/-! ## Ticks -/

/-- `full` with the edges of its Wings one period from now, every Wing complete or none. -/
def edges (done : Bool) (f : Job → Job) : State :=
  { full with
    wings := full.wings.map fun g => { g with nextEdge := full.now + g.period, done := done, doneGc := 90, doneTime := full.now }
    job := f { full.job with bound := 700000 } }

theorem witness_BoundariesTurnTheTick :
    (∀ d, (edges d id).mir.enable = false ∧ (edges d id).thr.stw.peer = none ∧
      ∀ w, ((edges d id).wing w).clockOn = true → ((edges d id).wing w).nextEdge = (edges d id).now + ((edges d id).wing w).period) ∧
    (∀ rc ∈ [5000, 5001], let s := edges true fun j => { j with js := .loaded, startSet := true, startRc := BitVec.ofNat 64 rc }
      s.job.js = .loaded ∧ s.job.startSet = true ∧ s.thr.clk.residual.toInt.natAbs ≤ 19) ∧
    (5000#64 ≤ full.thr.clk.jclk ∧ full.thr.clk.jclk < 5001#64) ∧
    (let s := { edges true id with thr := { full.thr with clk := { full.thr.clk with residual := 20#8 } } }
     (19 < s.thr.clk.residual.toInt.natAbs)) ∧
    (edges true fun j => { j with ticking := false }).nextBound = none ∧
    (∀ x ∈ [(700000, true), (700001, false)], let s := edges true fun j => { j with bound := x.1 }
      s.nextBound = some x.1 ∧ decide (x.1 ≤ s.rc) = x.2) ∧
    (let s := edges true id
     s.thr.clk.tickSet = none ∧ s.thr.clk.stopAll = false ∧ s.alignPeriod = 0 ∧ s.job.js = .running ∧ s.allComplete = true ∧ s.job.pend = 0) ∧
    (∀ x ∈ [(1, 0), (1, 1), (2, 1)], let s := edges true fun j => { j with pend := BitVec.ofNat 2 x.1, pendStick := BitVec.ofNat 64 x.2 }
      s.nextBound = some 700000 ∧ s.job.pendStick ≤ s.job.stick + 1 ∧ s.job.frozen = false) ∧
    (let s := edges true fun j => { j with pend := 1, pendStick := 9, frozen := true }
     s.nextBound = some 700000 ∧ s.job.frozen = true ∧ s.job.pend = 1) ∧
    (∀ js ∈ [JState.draining, .done, .faulted], (edges true fun j => { j with js := js }).nextBound = some 700000) ∧
    (let s := edges false fun j => { j with rt := true }
     s.nextBound = some 700000 ∧ s.job.js = .running ∧ s.job.rt = true ∧ s.job.frozen = false ∧ s.allComplete = false ∧
     s.job.missNow = false) := by decide +kernel

/-- R61, R64: in real-time mode an unfinished schedule tick is a miss, and THRESH_TICK advances all the same. -/
theorem test_miss :
    let t := after .tickBoundary (edges false fun j => { j with rt := true, tick := 8, stick := 6 })
    (t.job.tick, t.job.stick, t.job.miss, t.job.missCount) = (9#64, 6#64, true, 1#16) ∧
    (after .tickBoundary (edges true fun j => { j with rt := true, tick := 8, stick := 6 })).job.stick = 7#64 := by decide +kernel

/-- Wing 0 with its Rooms idle, and `f`. -/
def winged (f : Wing → Wing) (g : Room → Room := id) : State := ((full.modWing 0 f).modRoom 0 g).modRoom 5 id

def stopAt (n : Nat) (f : Wing → Wing := id) (g : Room → Room := id) : State :=
  winged (fun x => f { x with clockOn := false, active := false, fstop := some { gateAt := n, oldM := 20, newM := 25, since := 0 } }) g

theorem witness_WingsCompleteStopAndFreeze :
    (∀ m ∈ [0, 25], let s := winged fun g => { g with newM := m }
      let g := s.wing 0
      g.active = true ∧ g.done = false ∧ g.fstop = none ∧ s.advancing 0 = true ∧ g.frzOn = false ∧
      (∀ r ∈ roomsOf 0, (s.room r).on = true → s.roomIdle r = true) ∧ (∀ r ∈ roomsOf 0, (s.room r).pend = [] ∧ (s.room r).runs = [])) ∧
    (∀ n ∈ [699600, 699599], let s := stopAt n
      let g := s.wing 0
      g.clockOn = false ∧ g.fstop.map (·.gateAt) = some n ∧ g.halted = false ∧ g.holdover = false ∧ n + 400 ≤ s.rc ∧ s.now = s.rc * RCQ ∧
      bit s.thr.pwr.rg 0 = true ∧ g.active = false ∧ g.stopPend = false ∧ g.corr = [] ∧
      ∀ r ∈ roomsOf 0, (s.room r).pend = [] ∧ (s.room r).frz = [] ∧ (s.room r).runs = [] ∧ (s.room r).wends = []) ∧
    (full.rc < 698001 + 2000 ∧ 698000 + 2000 ≤ full.rc) ∧
    (∀ b ∈ [none, some 0#2, some 1, some 2, some 3], let s := winged fun g => { g with frzOn := true, frzLen := 9, frzBits := b }
      let g := s.wing 0
      g.frzOn = true ∧ g.held = false ∧ s.frozenW 0 = false ∧ g.active = true ∧ g.done = false ∧ g.frzRead = none) ∧
    (∀ n ∈ [1, 0], let s : State := { winged (fun g => { g with frzOn := true, frzSince := n }) fun rm => { rm with frz := [.credit 7 0] } with
        now := full.freezeLimit * RCQ }
      let g := s.wing 0
      g.frzOn = true ∧ g.frzRep = false ∧ s.frozenW 0 = true ∧ decide (g.frzSince + s.freezeLimit * RCQ ≤ s.now) = (n == 0)) := by
  refine ⟨?_, ?_, by decide +kernel, ?_, by decide +kernel⟩ <;>
    simp only [List.forall_mem_cons, List.not_mem_nil, false_implies, implies_true, and_true] <;> decide +kernel

/-- R95: the clock restarts at the new ratio 400 rc after the gating edge; with the rail late, not yet. -/
theorem test_restart :
    let t := after (.wingClockRestart 0 true) (stopAt 699600)
    ((t.wing 0).m, (t.wing 0).clockOn, (t.wing 0).relSlow, (t.wing 0).nextEdge) = (25, true, false, full.now + RCQ / 25) ∧
    ((after (.wingClockRestart 0 false) (stopAt 699600)).wing 0).relSlow = true ∧
    ((after (.wingRelockFail 0) (stopAt 698000)).wing 0).halted = true ∧ ((after (.wingRelockFail 0) (stopAt 698001)).wing 0).halted = false := by
  decide +kernel

/-! ## The machine as a whole -/

theorem witness_StepRunsTheFrontCommand :
    ({ full with pending := [.jobDone, .refLoss] } : State).pending = .jobDone :: [.refLoss] ∧ full.pending = [] := ⟨rfl, rfl⟩

theorem witness_StepKeepsTime : full.inTime ∧ (∃ t, step full = .next t) ∧
    ∃ t, step { full with pending := [.refLoss] } = .next t := ⟨by unfold State.inTime; decide +kernel, ⟨_, rfl⟩, ⟨_, rfl⟩⟩

/-- Time passes from reset: the first rc edge counts one. -/
theorem test_first_edge : (tick State.reset).now = RCQ ∧ (tick State.reset).rc = 1 := by decide +kernel

end Sys2Proof.Tests
end

/-! SUPPORT. Time: what a command and an edge make of the clocks (chapter 03; assumption log 1 and 2). -/

namespace Sys2Proof.Machine

/-! ## Commands -/

/-- Every command ends in a next state with the queue and the clocks of the state it began in. -/
theorem exec_eq_done (c : Instr) (s : State) : ∃ u, exec c s = s.done u := by
  cases c <;> exact ⟨_, rfl⟩

theorem exec_clocks {c : Instr} {s t : State} (h : exec c s = .next t) :
    t.pending = s.pending ∧ t.now = s.now ∧ t.rc = s.rc := by
  obtain ⟨u, hu⟩ := exec_eq_done c s
  rw [hu] at h
  cases h
  exact ⟨rfl, rfl, rfl⟩

/-- A step with a command at the front of the queue leaves the clocks as they stand. -/
theorem step_clocks_of_pending {s t : State} (hp : s.pending ≠ []) (h : step s = .next t) :
    t.now = s.now ∧ t.rc = s.rc := by
  unfold step at h
  split at h
  · contradiction
  · exact (exec_clocks h).2

theorem step_eq_tick {s t : State} (hp : s.pending = []) (h : step s = .next t) : t = tick s := by
  unfold step at h
  rw [hp] at h
  cases h
  rfl

/-! ## The next edge -/

/-- A fold whose steps only lower a bound, and never down to `n`, ends above `n` and not past the bound it began with. -/
theorem foldl_above_below {α : Type} {f : Nat → α → Nat} {n : Nat}
    (hf : ∀ t a, n < t → n < f t a ∧ f t a ≤ t) (l : List α) {t : Nat} (h : n < t) :
    n < l.foldl f t ∧ l.foldl f t ≤ t := by
  induction l generalizing t with
  | nil => exact ⟨h, Nat.le_refl t⟩
  | cons a l ih =>
    obtain ⟨hlo, hhi⟩ := hf t a h
    obtain ⟨h1, h2⟩ := ih hlo
    exact ⟨h1, Nat.le_trans h2 hhi⟩

/-- The next edge comes after the present instant, and no later than the next edge of the reference. -/
theorem State.nextInstant_bounds {s : State} (h : s.inTime) :
    s.now < s.nextInstant ∧ s.nextInstant ≤ (s.rc + 1) * RCQ := by
  refine foldl_above_below (fun t g ht => ?_) _ h.2
  split
  · exact ⟨Nat.lt_min.2 ⟨ht, Nat.lt_of_lt_of_le (Nat.lt_succ_self _) (Nat.le_max_right _ _)⟩, Nat.min_le_left _ _⟩
  · exact ⟨ht, Nat.le_refl t⟩

/-- The passage of time keeps the reference count of the instant, which grows by at most one. -/
theorem tick_inTime {s : State} (h : s.inTime) :
    (tick s).inTime ∧ s.now < (tick s).now ∧ s.rc ≤ (tick s).rc ∧ (tick s).rc ≤ s.rc + 1 := by
  obtain ⟨hlt, hle⟩ := s.nextInstant_bounds h
  obtain ⟨hlo, -⟩ := h
  have hnow : (tick s).now = s.nextInstant := rfl
  have hrc : (tick s).rc = if (s.rc + 1) * RCQ ≤ s.nextInstant then s.rc + 1 else s.rc := rfl
  unfold State.inTime
  rw [hnow, hrc]
  unfold RCQ at *
  split <;> omega

/-- Settles O60: a command leaves queue and clocks alone, and an edge lies in the reference cycle that it is counted in. -/
theorem stepKeepsTime : Obligations.StepKeepsTime := by
  intro s t hs hstep
  by_cases hp : s.pending = []
  · obtain rfl := step_eq_tick hp hstep
    obtain ⟨hin, hnow, hge, hle⟩ := tick_inTime hs
    exact ⟨hin, hge, hle, fun hne => absurd hp hne, fun _ => ⟨hnow, hp⟩⟩
  · obtain ⟨hnow, hrc⟩ := step_clocks_of_pending hp hstep
    refine ⟨?_, by omega, by omega, fun _ => ⟨hnow, hrc⟩, fun he => absurd he hp⟩
    unfold State.inTime at hs ⊢
    rwa [hnow, hrc]

end Sys2Proof.Machine

/-! SUPPORT. Words made of fields (R11, R781) and what a write of RW and W1C fields leaves of them (R13, R15, R16). -/

namespace Sys2Proof.Machine

/-! ## Flags of a packed number -/

/-- The fields stand in rising order from bit `lo` on and do not overlap. -/
def rising (lo : Nat) : List (Nat × Nat × Nat) → Bool
  | [] => true
  | f :: fs => decide (lo ≤ f.1) && rising (f.1 + f.2.1) fs

/-- One step of `pack`. -/
def packField (a : Nat) (f : Nat × Nat × Nat) : Nat := a + (f.2.2 % 2 ^ f.2.1) * 2 ^ f.1

theorem pack_eq_foldl (fs : List (Nat × Nat × Nat)) : pack fs = fs.foldl packField 0 := rfl

theorem packField_lt {a : Nat} (f : Nat × Nat × Nat) (ha : a < 2 ^ f.1) : packField a f < 2 ^ (f.1 + f.2.1) := by
  have hv : f.2.2 % 2 ^ f.2.1 + 1 ≤ 2 ^ f.2.1 := Nat.mod_lt _ (Nat.two_pow_pos _)
  calc packField a f < 2 ^ f.1 + (f.2.2 % 2 ^ f.2.1) * 2 ^ f.1 := by unfold packField; omega
    _ = (f.2.2 % 2 ^ f.2.1 + 1) * 2 ^ f.1 := by rw [Nat.succ_mul, Nat.add_comm]
    _ ≤ 2 ^ f.2.1 * 2 ^ f.1 := Nat.mul_le_mul_right _ hv
    _ = 2 ^ (f.1 + f.2.1) := by rw [Nat.pow_add, Nat.mul_comm]

/-- Packing a field changes no bit below it. -/
theorem testBit_packField_of_lt {a i : Nat} (f : Nat × Nat × Nat) (ha : a < 2 ^ f.1) (hi : i < f.1) :
    (packField a f).testBit i = a.testBit i := by
  rw [packField, Nat.add_comm, Nat.mul_comm, Nat.testBit_two_pow_mul_add _ ha, if_pos hi]

theorem testBit_packField_flag {a i : Nat} (b : Bool) (ha : a < 2 ^ i) : (packField a (i, 1, b2n b)).testBit i = b := by
  rw [packField, Nat.add_comm, Nat.mul_comm, Nat.testBit_two_pow_mul_add _ ha, if_neg (Nat.lt_irrefl i), Nat.sub_self]
  cases b <;> simp [b2n]

theorem testBit_foldl_packField_of_lt {fs : List (Nat × Nat × Nat)} {a lo i : Nat} (hfs : rising lo fs = true)
    (ha : a < 2 ^ lo) (hi : i < lo) : (fs.foldl packField a).testBit i = a.testBit i := by
  induction fs generalizing a lo with
  | nil => rfl
  | cons f fs ih =>
    simp only [rising, Bool.and_eq_true, decide_eq_true_eq] at hfs
    obtain ⟨hlo, hfs⟩ := hfs
    have ha' : a < 2 ^ f.1 := Nat.lt_of_lt_of_le ha (Nat.pow_le_pow_right Nat.two_pos hlo)
    rw [List.foldl_cons, ih hfs (packField_lt f ha') (by omega), testBit_packField_of_lt f ha' (by omega)]

theorem testBit_foldl_packField_flag {fs : List (Nat × Nat × Nat)} {a lo i : Nat} {b : Bool} (hfs : rising lo fs = true)
    (ha : a < 2 ^ lo) (hm : (i, 1, b2n b) ∈ fs) : (fs.foldl packField a).testBit i = b := by
  induction fs generalizing a lo with
  | nil => cases hm
  | cons f fs ih =>
    simp only [rising, Bool.and_eq_true, decide_eq_true_eq] at hfs
    obtain ⟨hlo, hfs⟩ := hfs
    have ha' : a < 2 ^ f.1 := Nat.lt_of_lt_of_le ha (Nat.pow_le_pow_right Nat.two_pos hlo)
    rw [List.foldl_cons]
    rcases List.mem_cons.1 hm with rfl | hm
    · rw [testBit_foldl_packField_of_lt hfs (packField_lt _ ha') (Nat.lt_succ_self i), testBit_packField_flag b ha']
    · exact ih hfs (packField_lt f ha') hm

theorem testBit_pack_flag {fs : List (Nat × Nat × Nat)} {i : Nat} {b : Bool} (hfs : rising 0 fs = true)
    (hm : (i, 1, b2n b) ∈ fs) : (pack fs).testBit i = b :=
  testBit_foldl_packField_flag hfs Nat.one_pos hm

@[simp] theorem length_wordsOf (n : Nat) (fs : List (Nat × Nat × Nat)) : (wordsOf n fs).length = n := by simp [wordsOf]

@[simp] theorem length_splitWords (n v : Nat) : (splitWords n v).length = n := by simp [splitWords]

/-- Bit `i` of word `j` of a register is its flag at bit 64 × j + i. -/
theorem bit_wordsOf_flag {n j i : Nat} {fs : List (Nat × Nat × Nat)} {b : Bool} (hfs : rising 0 fs = true) (hj : j < n)
    (hi : i < 64) (hm : (64 * j + i, 1, b2n b) ∈ fs) : bit ((wordsOf n fs).getD j 0) i = b := by
  have hw : (wordsOf n fs).getD j 0 = BitVec.ofNat 64 (nbits (pack fs) (64 * j) 64) := by
    simp [wordsOf, List.getD_eq_getElem?_getD, hj]
  rw [hw, bit, BitVec.getLsbD_ofNat, nbits, Nat.testBit_mod_two_pow, Nat.testBit_shiftRight, testBit_pack_flag hfs hm]
  simp [hi]

/-! ## Written words -/

@[simp] theorem bit_zero (w i : Nat) : bit (0 : BitVec w) i = false := by simp [bit]

theorem bit_writtenWord (old d hw rw w1c : BitVec 64) (i : Nat) :
    bit (writtenWord old d hw rw w1c) i =
      ((bit old i && !(bit rw i || (bit d i && bit w1c i))) || (bit d i && bit rw i) || (bit hw i && bit w1c i)) := by
  by_cases hi : i < 64
  · simp [writtenWord, bit, hi]
  · simp [writtenWord, bit, BitVec.getLsbD_of_ge _ i (Nat.le_of_not_lt hi)]

/-- A W1C bit is cleared by a 1 and set by hardware, and the set prevails (R15, R16). -/
theorem bit_writtenWord_w1c {old d hw rw w1c : BitVec 64} {i : Nat} (hr : bit rw i = false) (hc : bit w1c i = true) :
    bit (writtenWord old d hw rw w1c) i = ((bit old i && !bit d i) || bit hw i) := by
  simp [bit_writtenWord, hr, hc]

theorem bit_writtenWord_rw {old d hw rw w1c : BitVec 64} {i : Nat} (hr : bit rw i = true) (hc : bit w1c i = false) :
    bit (writtenWord old d hw rw w1c) i = bit d i := by
  simp [bit_writtenWord, hr, hc]

/-- A field of RW bits takes the data (R13). -/
theorem extractLsb'_writtenWord_rw {old d hw rw w1c : BitVec 64} {lo len : Nat}
    (hr : ∀ i < len, bit rw (lo + i) = true) (hc : ∀ i < len, bit w1c (lo + i) = false) :
    (writtenWord old d hw rw w1c).extractLsb' lo len = d.extractLsb' lo len := by
  ext i hi
  simp only [BitVec.getElem_extractLsb']
  exact bit_writtenWord_rw (hr i hi) (hc i hi)

theorem field_eq_toNat_extractLsb' {w : Nat} (b : BitVec w) (lo len : Nat) : field b lo len = (b.extractLsb' lo len).toNat := by
  simp [field, nbits]

end Sys2Proof.Machine

/-! SUPPORT. Management accesses (R780 to R791): where an address leads, and what a served, a denied and a read-only access
makes of the state. -/

namespace Sys2Proof.Machine

/-! ## Addresses (R780) -/

theorem devAddr_toNat {n : Nat} (h : n < 0x020007000000) : (devAddr n).toNat = n := by
  rw [devAddr, BitVec.toNat_ofNat]
  exact Nat.mod_eq_of_lt (by omega)

theorem blockOf_thrAddr {off : Nat} (h : off < 0x100000) : blockOf (thrAddr off) = some (.threshold, off) := by
  have hn : (thrAddr off - 0x020000000000) / 0x100000 = 0 := by unfold thrAddr; omega
  have ho : thrAddr off % 0x100000 = off := by unfold thrAddr; omega
  unfold blockOf
  rw [if_neg (by simp only [Bool.or_eq_true, decide_eq_true_eq]; unfold thrAddr; omega)]
  simp only [hn, ho, if_pos]

theorem blockOf_porchAddr {p : PorchId} {off : Nat} (h : off < 0x100000) :
    blockOf (porchAddr p off) = some (.porch p, off) := by
  have hp := p.isLt
  have hn : (porchAddr p off - 0x020000000000) / 0x100000 = 2 + p.val := by unfold porchAddr; omega
  have ho : porchAddr p off % 0x100000 = off := by unfold porchAddr; omega
  unfold blockOf
  rw [if_neg (by simp only [Bool.or_eq_true, decide_eq_true_eq]; unfold porchAddr; omega)]
  simp only [hn, ho]
  rw [if_neg (by omega), if_neg (by omega), if_pos (by omega), Nat.add_sub_cancel_left, Fin.ofNat_val_eq_self]

theorem blockOf_roomAddr {r : RoomId} {off : Nat} (h : off < 0x100000) :
    blockOf (roomAddr r off) = some (.room r, off) := by
  have hr := r.isLt
  have hn : (roomAddr r off - 0x020000000000) / 0x100000 = 16 + r.val := by unfold roomAddr; omega
  have ho : roomAddr r off % 0x100000 = off := by unfold roomAddr; omega
  unfold blockOf
  rw [if_neg (by simp only [Bool.or_eq_true, decide_eq_true_eq]; unfold roomAddr; omega)]
  simp only [hn, ho]
  rw [if_neg (by omega), if_neg (by omega), if_neg (by omega), if_neg (by omega), if_neg (by omega),
    if_pos (by simp; omega), Nat.add_sub_cancel_left, Fin.ofNat_val_eq_self]

/-- An address names a word of a register that is there: the register at `base` of block `b`, which reads `ws`. -/
structure State.Names (s : State) (addr : Nat) (b : Block) (off base : Nat) (ws : List (BitVec 64)) : Prop where
  aligned : addr % 8 = 0
  block   : blockOf addr = some (b, off)
  reg     : s.regAt b off = some (base, ws)
  here    : ∀ r, b = .room r → r.val < s.enabledRooms
  within  : (off - base) / 8 < ws.length

theorem State.Names.mgmtAt_eq {s : State} {addr : Nat} {b : Block} {off base : Nat} {ws : List (BitVec 64)}
    (h : s.Names addr b off base ws) (hb : s.preBoot = false) (o : Origin) (write : Bool) :
    s.mgmtAt o addr write = .inr { block := b, off := off, base := base, words := ws } := by
  obtain ⟨haligned, hblock, hreg, hhere, hwithin⟩ := h
  unfold State.mgmtAt
  simp only [hb, hblock, haligned, hreg, Bool.false_and, Bool.false_eq_true, if_false, ne_eq, not_true_eq_false]
  rw [if_neg]
  simp only [Bool.or_eq_true, decide_eq_true_eq, not_or, ge_iff_le, Nat.not_le]
  refine ⟨?_, hwithin⟩
  split
  · next r => simpa using hhere r rfl
  · simp

/-- A word of the Threshold's registers is there in every state. -/
theorem State.Names.threshold {s : State} {off base : Nat} {ws : List (BitVec 64)} (ha : off % 8 = 0) (hlt : off < 0x100000)
    (hreg : s.thrReg off = some (base, ws)) (hin : (off - base) / 8 < ws.length) :
    s.Names (thrAddr off) .threshold off base ws where
  aligned := by unfold thrAddr; omega
  block := blockOf_thrAddr hlt
  reg := hreg
  here := by simp
  within := hin

theorem State.Names.room {s : State} {r : RoomId} {off base : Nat} {ws : List (BitVec 64)} (ha : off % 8 = 0)
    (hlt : off < 0x100000) (hr : r.val < s.enabledRooms) (hreg : s.regAt (.room r) off = some (base, ws))
    (hin : (off - base) / 8 < ws.length) : s.Names (roomAddr r off) (.room r) off base ws where
  aligned := by unfold roomAddr; omega
  block := blockOf_roomAddr hlt
  reg := hreg
  here := by rintro _ ⟨⟩; exact hr
  within := hin

theorem State.Names.porch {s : State} {p : PorchId} {off base : Nat} {ws : List (BitVec 64)} (ha : off % 8 = 0)
    (hlt : off < 0x100000) (hreg : s.regAt (.porch p) off = some (base, ws)) (hin : (off - base) / 8 < ws.length) :
    s.Names (porchAddr p off) (.porch p) off base ws where
  aligned := by unfold porchAddr; omega
  block := blockOf_porchAddr hlt
  reg := hreg
  here := by simp
  within := hin

/-! ## Writes that are served or denied (R715, R783, R791) -/

/-- A write that finds its register, its rights and its block's power takes effect, and ends the origin's capture. -/
theorem mgmtPut_eq_applyWord {s : State} {o : Origin} {addr : Nat} {b : Block} {off base : Nat} {ws : List (BitVec 64)}
    {d : BitVec 64} (hw : BitVec 64) (hq : s.gbRoom = true) (hb : s.preBoot = false)
    (hn : (s.dropCapture o).Names addr b off base ws)
    (hr : ∀ r ∈ s.needs b off base ((off - base) / 8) true d, s.may o r = true) (hon : s.blockOn b = true) :
    mgmtPut o addr d hw s = ((s.dropCapture o).applyWord o b base ((off - base) / 8) addr d hw).2 := by
  have hnone : ((s.dropCapture o).needs b off base ((off - base) / 8) true d).find?
      (fun r => !((s.dropCapture o).may o r)) = none := by
    rw [List.find?_eq_none]
    intro r hm
    have hmay : (s.dropCapture o).may o r = true := hr r hm
    simp [hmay]
  have hon' : (s.dropCapture o).blockOn b = true := hon
  unfold mgmtPut State.mgmtWrite
  simp only [hq, if_true, hn.mgmtAt_eq hb, hnone, hon', Bool.not_true, Bool.false_eq_true, if_false]

/-- A write without MGMT_WRITE is denied (R715). -/
theorem mgmtPut_eq_denyOf {s : State} {o : Origin} {addr : Nat} {b : Block} {off base : Nat} {ws : List (BitVec 64)}
    (d hw : BitVec 64) (hq : s.gbRoom = true) (hb : s.preBoot = false)
    (hn : (s.dropCapture o).Names addr b off base ws) (hr : s.may o rMgmtWrite = false) :
    mgmtPut o addr d hw s = (s.dropCapture o).denyOf o rMgmtWrite addr := by
  have hfirst : ((s.dropCapture o).needs b off base ((off - base) / 8) true d).find?
      (fun r => !((s.dropCapture o).may o r)) = some rMgmtWrite := by
    have hr' : (s.dropCapture o).may o rMgmtWrite = false := hr
    simp [State.needs, hr']
  unfold mgmtPut State.mgmtWrite
  simp only [hq, if_true, hn.mgmtAt_eq hb, hfirst]

/-- A denial is one record and one report PRIV_DENIED. -/
theorem State.denyOf_eq (s : State) (o : Origin) (right addr : Nat) :
    ∃ g rp, s.denyOf o right addr =
        { s with thr := { s.thr with guest := g }, flt := { s.flt with queue := s.flt.queue ++ [rp] } } ∧
      rp.code = 0x9004#16 := by
  unfold State.denyOf State.deny State.raise
  obtain ⟨rp, h, hcode, -⟩ := State.report_eq _ _
  rw [h]
  exact ⟨_, rp, rfl, hcode⟩

/-- A write to a register of the Threshold without rights, GO or a debug change of its own needs MGMT_WRITE alone. -/
theorem State.needs_threshold {s : State} {off base j : Nat} {d : BitVec 64} (hgb : isGbReg .threshold off = false)
    (hmark : base ≠ 0x340) (hdbg : s.setsDebug .threshold base j d = false) (hgo : setsGo .threshold base j d = false) :
    s.needs .threshold off base j true d = [rMgmtWrite] := by
  simp [State.needs, hgb, hmark, hdbg, hgo]

theorem State.needs_room (s : State) (r : RoomId) (off base j : Nat) (d : BitVec 64) :
    s.needs (.room r) off base j true d = [rMgmtWrite] := by
  simp [State.needs, isGbReg, State.setsDebug, setsGo]

/-! ## What is recorded of a write (R725, R726, R753) -/

/-- The state with events queued for the Guestbook, and the Threshold's W1C_RACE. -/
def State.recorded (s : State) (w : BitVec 64) (es : List GbEvent) : State :=
  { s with thr := { s.thr with w1c := w, guest := { s.thr.guest with queue := s.thr.guest.queue ++ es } } }

theorem State.recorded_nil (s : State) : s.recorded s.thr.w1c [] = s := by simp [State.recorded]

theorem State.recorded_recorded (s : State) (w w' : BitVec 64) (es es' : List GbEvent) :
    (s.recorded w es).recorded w' es' = s.recorded w' (es ++ es') := by simp [State.recorded]

theorem State.addRace_threshold_eq (s : State) (base j : Nat) (races : BitVec 64) :
    ∃ w, s.addRace .threshold base j races = s.recorded w [] := by
  unfold State.addRace
  split
  · exact ⟨_, s.recorded_nil.symm⟩
  · exact ⟨raceWord s.thr.w1c races base j, by simp [State.recorded]⟩

theorem State.addRace_zero (s : State) (b : Block) (base j : Nat) : s.addRace b base j 0#64 = s := by simp [State.addRace]

theorem State.modeRec_eq (s : State) (o : Origin) (old new : Nat) :
    ∃ e, s.modeRec o old new = s.recorded s.thr.w1c [e] ∧ e.event = 0x04 := ⟨_, rfl, rfl⟩

/-- The records that follow an effect: its MGMT record where a word changed, and a MODE event where debug mode did. -/
def State.logged (t : State) (o : Origin) (addr : Nat) (d before : BitVec 64) (changed debug : Bool) : State :=
  let u := if changed then t.mgmtRec o addr d before else t
  if u.smoke.debug != debug then u.modeRec o u.job.smode.toNat u.job.smode.toNat else u

theorem State.logged_eq (t : State) (o : Origin) (addr : Nat) (d before : BitVec 64) (changed debug : Bool) :
    ∃ es, t.logged o addr d before changed debug = t.recorded t.thr.w1c es ∧
      (t.smoke.debug ≠ debug → ∃ e ∈ es, e.event = 0x04) := by
  obtain ⟨es, hes⟩ : ∃ es, (if changed then t.mgmtRec o addr d before else t) = t.recorded t.thr.w1c es := by
    cases changed
    · exact ⟨[], t.recorded_nil.symm⟩
    · exact ⟨_, rfl⟩
  unfold State.logged
  simp only [hes]
  by_cases hd : t.smoke.debug = debug
  · have hsame : ((t.recorded t.thr.w1c es).smoke.debug != debug) = false := by simpa [State.recorded] using hd
    exact ⟨es, by rw [hsame]; rfl, fun h => absurd hd h⟩
  · have hdiff : ((t.recorded t.thr.w1c es).smoke.debug != debug) = true := by simpa [State.recorded] using hd
    obtain ⟨e, he, hev⟩ := (t.recorded t.thr.w1c es).modeRec_eq o t.job.smode.toNat t.job.smode.toNat
    refine ⟨es ++ [e], ?_, fun _ => ⟨e, by simp, hev⟩⟩
    rw [hdiff, if_pos rfl]
    exact he.trans (State.recorded_recorded ..)

/-! ## The effect of a served write -/

/-- The blocks none of whose registers has an operation of its own. -/
def Block.plain : Block → Bool
  | .palbo => false
  | .porch _ => false
  | _ => true

/-- A served write to a plain block: refused for the job state, ignored, or its fields, its records, the switch of the Mirror
port and GO. -/
theorem State.applyWord_plain (s : State) (o : Origin) {b : Block} (hb : b.plain = true) (base j addr : Nat)
    (d hw : BitVec 64) :
    ∃ changed, s.applyWord o b base j addr d hw =
      if s.wordState b base j d then (respState, s)
      else if s.mirrorIgnored b base j d then (respOk, s)
      else
        let m := wordMasks b base j
        let before := s.wordAt b base j
        let p := if m.1 ||| m.2 = 0#64 then s else s.putWord b base j (writtenWord before d hw m.1 m.2)
        let t := (p.addRace b base j (raceBits d hw m.2)).logged o addr d before changed s.smoke.debug
        let t := if b == .threshold && base == 0x4C0 then t.mirrorSwitch s.mir.enable s.mir.port else t
        (respOk, if setsGo b base j d then t.goWrite d else t) := by
  cases b with
  | palbo => cases hb
  | porch p => cases hb
  | threshold => exact ⟨_, rfl⟩
  | cellar c => exact ⟨_, rfl⟩
  | newel w => exact ⟨_, rfl⟩
  | room r => exact ⟨_, rfl⟩

/-- A write that the job state refuses changes nothing. -/
theorem State.applyWord_refused {s : State} {b : Block} {base j : Nat} {d : BitVec 64} (o : Origin) (addr : Nat)
    (hw : BitVec 64) (hstate : s.wordState b base j d = true) : (s.applyWord o b base j addr d hw).2 = s := by
  unfold State.applyWord
  simp only [hstate, if_true]

/-- A write to a word of the Threshold that the job state admits: its fields, its records, and the switch of the Mirror port. -/
theorem State.applyWord_threshold {s : State} {base j : Nat} {d rw w1c : BitVec 64} (o : Origin) (addr : Nat)
    (hw : BitVec 64) (hm : wordMasks .threshold base j = (rw, w1c)) (hne : rw ||| w1c ≠ 0#64)
    (hstate : s.wordState .threshold base j d = false) (hport : s.mirrorIgnored .threshold base j d = false)
    (hgo : setsGo .threshold base j d = false) :
    ∃ w es, (s.applyWord o .threshold base j addr d hw).2 =
        (if base = 0x4C0 then
          ((s.putThr base j (writtenWord (s.wordAt .threshold base j) d hw rw w1c)).recorded w es).mirrorSwitch
            s.mir.enable s.mir.port
        else (s.putThr base j (writtenWord (s.wordAt .threshold base j) d hw rw w1c)).recorded w es) ∧
      ((s.putThr base j (writtenWord (s.wordAt .threshold base j) d hw rw w1c)).smoke.debug ≠ s.smoke.debug →
        ∃ e ∈ es, e.event = 0x04) := by
  obtain ⟨changed, happ⟩ := s.applyWord_plain o (b := .threshold) rfl base j addr d hw
  have hput : s.putWord .threshold base j (writtenWord (s.wordAt .threshold base j) d hw rw w1c) =
    s.putThr base j (writtenWord (s.wordAt .threshold base j) d hw rw w1c) := rfl
  simp only [hstate, hport, hgo, hm, hne, Bool.false_eq_true, if_false, hput] at happ
  generalize s.putThr base j (writtenWord (s.wordAt .threshold base j) d hw rw w1c) = p at happ ⊢
  obtain ⟨w, hrace⟩ := p.addRace_threshold_eq base j (raceBits d hw w1c)
  obtain ⟨es, hlog, hmode⟩ := (p.recorded w []).logged_eq o addr d (s.wordAt .threshold base j) changed s.smoke.debug
  refine ⟨w, es, ?_, hmode⟩
  have hrec : (p.recorded w []).recorded (p.recorded w []).thr.w1c es = p.recorded w es := p.recorded_recorded ..
  rw [happ, hrace, hlog, hrec]
  simp

/-- A write to an RO word of the Threshold changes nothing (R14). -/
theorem State.applyWord_readOnly {s : State} {base j : Nat} (o : Origin) (addr : Nat) (d hw : BitVec 64)
    (hm : wordMasks .threshold base j = (0#64, 0#64)) (hmirror : base ≠ 0x4C0) (hstw : base ≠ 0x500) :
    (s.applyWord o .threshold base j addr d hw).2 = s := by
  have hgo : setsGo .threshold base j d = false := by simp [setsGo, hstw]
  have hrace : raceBits d hw 0#64 = 0#64 := by simp [raceBits]
  have hport : s.mirrorIgnored .threshold base j d = false := by simp [State.mirrorIgnored, hmirror]
  have hswitch : (base == 0x4C0) = false := by simp [hmirror]
  cases hstate : s.wordState .threshold base j d
  · unfold State.applyWord
    simp only [hstate, hport, hm, hgo, hrace, hswitch, State.addRace_zero, BitVec.or_zero, if_true, ite_self, BitVec.xor_self,
      BitVec.zero_and, bne_self_eq_false, Bool.false_and, Bool.and_false, Bool.false_eq_true, if_false]
  · exact s.applyWord_refused o addr hw hstate

/-- A write to a word of a Room without W1C bits: its fields and its records. -/
theorem State.applyWord_room (s : State) (o : Origin) (r : RoomId) {base j : Nat} (addr : Nat) (d hw : BitVec 64)
    {rw : BitVec 64} (hm : wordMasks (.room r) base j = (rw, 0#64)) (hrw : rw ≠ 0#64) :
    ∃ w es, (s.applyWord o (.room r) base j addr d hw).2 =
      (s.modRoom r fun rm => rm.putWord base (writtenWord (s.wordAt (.room r) base j) d hw rw 0#64)).recorded w es := by
  obtain ⟨changed, happ⟩ := s.applyWord_plain o (b := .room r) rfl base j addr d hw
  have hstate : s.wordState (.room r) base j d = false := by simp [State.wordState, State.setsDebug, setsGo]
  have hport : s.mirrorIgnored (.room r) base j d = false := by simp [State.mirrorIgnored]
  have hgo : setsGo (.room r) base j d = false := by simp [setsGo]
  have hrace : raceBits d hw 0#64 = 0#64 := by simp [raceBits]
  obtain ⟨es, hlog, -⟩ := (s.putWord (.room r) base j (writtenWord (s.wordAt (.room r) base j) d hw rw 0#64)).logged_eq o addr d
    (s.wordAt (.room r) base j) changed s.smoke.debug
  refine ⟨s.thr.w1c, es, ?_⟩
  simp only [happ, hstate, hport, hgo, hm, hrace, BitVec.or_zero, hrw, State.addRace_zero, hlog, Bool.false_eq_true, if_false]
  rfl

end Sys2Proof.Machine

/-! SUPPORT. Management writes: status words with W1C bits, FAULT_READ_MARK, debug mode, the registers of a Room and denied
writes. -/

namespace Sys2Proof.Machine

/-! ## Flags as they read -/

theorem State.wordAt_tickStatus_miss (s : State) : bit (s.wordAt .threshold 0x100 0) 0 = s.job.miss :=
  bit_wordsOf_flag (n := 1) (j := 0) rfl (by decide) (by decide) (by simp)

theorem State.wordAt_tickStatus_overrun (s : State) : bit (s.wordAt .threshold 0x100 0) 1 = s.job.overrun :=
  bit_wordsOf_flag (n := 1) (j := 0) rfl (by decide) (by decide) (by simp)

theorem State.wordAt_faultStatus_overwrite (s : State) : bit (s.wordAt .threshold 0x440 1) 48 = s.flt.overwrite :=
  bit_wordsOf_flag (n := 4) (j := 1) rfl (by decide) (by decide) (by simp)

theorem State.wordAt_faultStatus_drop (s : State) : bit (s.wordAt .threshold 0x440 1) 49 = s.flt.drop :=
  bit_wordsOf_flag (n := 4) (j := 1) rfl (by decide) (by decide) (by simp)

theorem State.wordAt_debugCtl_drop (s : State) : bit (s.wordAt .threshold 0x480 0) 1 = s.smoke.drop :=
  bit_wordsOf_flag (n := 2) (j := 0) rfl (by decide) (by decide) (by simp)

theorem State.wordAt_mirrorCtl_mismatch (s : State) : bit (s.wordAt .threshold 0x4C0 0) 7 = s.mir.mismatch :=
  bit_wordsOf_flag (n := 3) (j := 0) rfl (by decide) (by decide) (by simp)

theorem State.wordAt_mirrorCtl_stopLate (s : State) : bit (s.wordAt .threshold 0x4C0 0) 8 = s.mir.stopLate :=
  bit_wordsOf_flag (n := 3) (j := 0) rfl (by decide) (by decide) (by simp)

theorem State.wordAt_mirrorCtl_lag (s : State) : bit (s.wordAt .threshold 0x4C0 0) 9 = s.mir.lag :=
  bit_wordsOf_flag (n := 3) (j := 0) rfl (by decide) (by decide) (by simp)

/-! ## Writes of the Threshold -/

/-- A write to a word of the Threshold by an origin that holds every right it needs. -/
theorem mgmtPut_threshold {s : State} {o : Origin} {rights : List Nat} {off base j : Nat} {ws : List (BitVec 64)}
    {d : BitVec 64} (hw : BitVec 64) (h : PortDue s o rights) (hreg : (s.dropCapture o).thrReg off = some (base, ws))
    (hj : (off - base) / 8 = j) (hin : j < ws.length) (ha : off % 8 = 0) (hlt : off < 0x100000)
    (hr : ∀ r ∈ s.needs .threshold off base j true d, r ∈ rights) :
    mgmtPut o (thrAddr off) d hw s = ((s.dropCapture o).applyWord o .threshold base j (thrAddr off) d hw).2 := by
  subst hj
  exact mgmtPut_eq_applyWord hw h.queue h.booted (.threshold ha hlt hreg hin) (fun r hm => h.rights r (hr r hm)) rfl

/-- A write by an origin with MGMT_WRITE to a word of the Threshold that needs no other right. -/
theorem mgmtPut_threshold_plain {s : State} {o : Origin} {off base j : Nat} {ws : List (BitVec 64)} {d : BitVec 64}
    (hw : BitVec 64) (h : PortDue s o [rMgmtWrite]) (hreg : (s.dropCapture o).thrReg off = some (base, ws))
    (hj : (off - base) / 8 = j) (hin : j < ws.length) (ha : off % 8 = 0) (hlt : off < 0x100000)
    (hgb : isGbReg .threshold off = false) (hmark : base ≠ 0x340) (hdbg : s.setsDebug .threshold base j d = false)
    (hgo : setsGo .threshold base j d = false) :
    mgmtPut o (thrAddr off) d hw s = ((s.dropCapture o).applyWord o .threshold base j (thrAddr off) d hw).2 :=
  mgmtPut_threshold hw h hreg hj hin ha hlt (by rw [State.needs_threshold hgb hmark hdbg hgo]; exact fun _ hm => hm)

/-- THRESH_TICK_STATUS: MISS and OVERRUN are cleared by a 1 unless hardware sets them in the same cycle. -/
theorem mgmtPut_tickStatus {s : State} {o : Origin} (d hw : BitVec 64) (h : PortDue s o [rMgmtWrite]) :
    ∃ w es, mgmtPut o (thrAddr 0x100) d hw s = State.recorded { s.dropCapture o with job := { s.job with
      miss := (s.job.miss && !bit d 0) || bit hw 0, overrun := (s.job.overrun && !bit d 1) || bit hw 1 } } w es := by
  have hput := mgmtPut_threshold_plain (off := 0x100) (j := 0) (d := d) hw h rfl rfl (by simp [State.tickStatus]) rfl
    (by decide) rfl (by decide) rfl rfl
  obtain ⟨w, es, happ, -⟩ := State.applyWord_threshold (s := s.dropCapture o) (base := 0x100) (j := 0) (d := d) o
    (thrAddr 0x100) hw rfl (by decide) rfl rfl rfl
  refine ⟨w, es, ?_⟩
  rw [hput, happ, if_neg (by decide)]
  simp only [State.putThr]
  rw [bit_writtenWord_w1c (by decide) (by decide), bit_writtenWord_w1c (by decide) (by decide),
    State.wordAt_tickStatus_miss, State.wordAt_tickStatus_overrun]
  rfl

/-- THRESH_JCLK is read-only: a write changes nothing. -/
theorem mgmtPut_jclk {s : State} {o : Origin} (d hw : BitVec 64) (h : PortDue s o [rMgmtWrite]) :
    mgmtPut o (thrAddr 0x140) d hw s = s.dropCapture o := by
  rw [mgmtPut_threshold_plain (off := 0x140) (j := 0) hw h rfl rfl Nat.one_pos rfl (by decide) rfl
    (by decide) rfl rfl]
  exact State.applyWord_readOnly o _ d hw rfl (by decide) (by decide)

/-- A READ_MARK that moves only between the present mark and COUNT (R734, R750). -/
theorem readMark_moved (mark m count : BitVec 48) :
    (if (decide (mark ≤ m) && decide (m ≤ count)) = true then m else mark) = if mark ≤ m ∧ m ≤ count then m else mark := by
  simp

/-- FAULT_READ_MARK (R750): the mark moves within its bounds, and a 1 clears OVERWRITE and DROP. -/
theorem mgmtPut_faultReadMark {s : State} {o : Origin} (d : BitVec 64) (h : PortDue s o [rMgmtWrite]) :
    ∃ w es, mgmtPut o (thrAddr 0x448) d 0 s = State.recorded { s.dropCapture o with flt := { s.flt with
      readMark := if s.flt.readMark ≤ d.extractLsb' 0 48 ∧ d.extractLsb' 0 48 ≤ s.flt.count then d.extractLsb' 0 48
        else s.flt.readMark
      overwrite := s.flt.overwrite && !bit d 48
      drop := s.flt.drop && !bit d 49 } } w es := by
  have hput := mgmtPut_threshold_plain (off := 0x448) (j := 1) (d := d) 0 h rfl rfl (by simp [State.faultStatus]) rfl
    (by decide) rfl (by decide) rfl rfl
  obtain ⟨w, es, happ, -⟩ := State.applyWord_threshold (s := s.dropCapture o) (base := 0x440) (j := 1) (d := d) o
    (thrAddr 0x448) 0 rfl (by decide) rfl rfl rfl
  refine ⟨w, es, ?_⟩
  rw [hput, happ, if_neg (by decide)]
  simp only [State.putThr]
  rw [bit_writtenWord_w1c (by decide) (by decide), bit_writtenWord_w1c (by decide) (by decide),
    extractLsb'_writtenWord_rw (by decide) (by decide), State.wordAt_faultStatus_overwrite, State.wordAt_faultStatus_drop,
    readMark_moved]
  simp only [bit_zero, Bool.or_false]
  rfl

/-! ## Debug mode (R768) -/

theorem State.setsDebug_eq {s : State} {d : BitVec 64} {on : Bool} (hon : bit d 0 = on) (hdbg : s.smoke.debug = !on) :
    s.setsDebug .threshold 0x480 0 d = true := by
  simp [State.setsDebug, hon, hdbg]

/-- A change of DEBUG needs MGMT_WRITE and DEBUG. -/
theorem mgmtPut_debugCtl {s : State} {o : Origin} {d : BitVec 64} (h : PortDue s o [rMgmtWrite, rDebug])
    (hset : s.setsDebug .threshold 0x480 0 d = true) :
    mgmtPut o (thrAddr 0x480) d 0 s = ((s.dropCapture o).applyWord o .threshold 0x480 0 (thrAddr 0x480) d 0).2 :=
  mgmtPut_threshold (off := 0x480) (j := 0) 0 h rfl rfl (by simp [State.debugCtl]) rfl (by decide)
    (by simp [State.needs, isGbReg, setsGo, hset])

/-- The states of the job in which debug mode may change. -/
theorem State.wordState_debugCtl {s : State} {d : BitVec 64}
    (hjs : s.job.js = .configured ∨ s.job.js = .loaded ∨ s.job.js = .done ∨ s.job.js = .faulted) :
    s.wordState .threshold 0x480 0 d = false := by
  rcases hjs with hjs | hjs | hjs | hjs <;> simp [State.wordState, setsGo, hjs]

theorem mgmtPut_debugCtl_admitted {s : State} {o : Origin} {d : BitVec 64} {on : Bool} (h : PortDue s o [rMgmtWrite, rDebug])
    (hon : bit d 0 = on) (hdbg : s.smoke.debug = !on)
    (hjs : s.job.js = .configured ∨ s.job.js = .loaded ∨ s.job.js = .done ∨ s.job.js = .faulted) :
    ∃ w es, mgmtPut o (thrAddr 0x480) d 0 s = State.recorded { s.dropCapture o with smoke := { s.smoke with
        debug := on, drop := s.smoke.drop && !bit d 1, checkEn := d.extractLsb' 8 8 } } w es ∧
      ∃ e ∈ es, e.event = 0x04 := by
  obtain ⟨w, es, happ, hmode⟩ := State.applyWord_threshold (s := s.dropCapture o) (base := 0x480) (j := 0) (d := d) o
    (thrAddr 0x480) 0 rfl (by decide) (State.wordState_debugCtl hjs) rfl rfl
  rw [mgmtPut_debugCtl h (State.setsDebug_eq hon hdbg), happ, if_neg (by decide)]
  have hp : (s.dropCapture o).putThr 0x480 0 (writtenWord ((s.dropCapture o).wordAt .threshold 0x480 0) d 0 0xFF01 0x2) =
      { s.dropCapture o with smoke := { s.smoke with
        debug := on, drop := s.smoke.drop && !bit d 1, checkEn := d.extractLsb' 8 8 } } := by
    simp only [State.putThr]
    rw [bit_writtenWord_rw (by decide) (by decide), bit_writtenWord_w1c (by decide) (by decide),
      extractLsb'_writtenWord_rw (by decide) (by decide), State.wordAt_debugCtl_drop, hon]
    simp only [bit_zero, Bool.or_false]
    rfl
  rw [hp] at hmode ⊢
  exact ⟨w, es, rfl, hmode (by cases on <;> simp [State.dropCapture, hdbg])⟩

theorem mgmtPut_debugCtl_refused {s : State} {o : Origin} {d : BitVec 64} {on : Bool} (h : PortDue s o [rMgmtWrite, rDebug])
    (hon : bit d 0 = on) (hdbg : s.smoke.debug = !on)
    (hjs : s.job.js = .loading ∨ s.job.js = .running ∨ s.job.js = .draining) :
    mgmtPut o (thrAddr 0x480) d 0 s = s.dropCapture o := by
  have hset := State.setsDebug_eq hon hdbg
  rw [mgmtPut_debugCtl h hset]
  refine State.applyWord_refused o _ 0 ?_
  have hset' : (s.dropCapture o).setsDebug .threshold 0x480 0 d = true := hset
  have hjs' : (s.dropCapture o).job.js = .loading ∨ (s.dropCapture o).job.js = .running ∨
    (s.dropCapture o).job.js = .draining := hjs
  rcases hjs' with hjs' | hjs' | hjs' <;> simp [State.wordState, hset', hjs']

/-! ## Registers of a Room -/

/-- A write by an origin with MGMT_WRITE to a word of a Room that is on and enabled. -/
theorem mgmtPut_room {s : State} {o : Origin} {r : RoomId} {off base j : Nat} {ws : List (BitVec 64)} (d hw : BitVec 64)
    (h : PortDue s o [rMgmtWrite]) (hon : (s.room r).on = true) (hr : r.val < s.enabledRooms)
    (hreg : (s.dropCapture o).regAt (.room r) off = some (base, ws)) (hj : (off - base) / 8 = j) (hin : j < ws.length)
    (ha : off % 8 = 0) (hlt : off < 0x100000) :
    mgmtPut o (roomAddr r off) d hw s =
      ((s.dropCapture o).applyWord o (.room r) base j (roomAddr r off) d hw).2 := by
  subst hj
  refine mgmtPut_eq_applyWord hw h.queue h.booted (.room ha hlt hr hreg hin) (fun r' hm => h.rights r' ?_) hon
  rwa [State.needs_room] at hm

/-- ROOM_PANTRY_SCRUB: the GAP field takes the data. -/
theorem mgmtPut_scrubGap {s : State} {o : Origin} {r : RoomId} (d hw : BitVec 64) (h : PortDue s o [rMgmtWrite])
    (hon : (s.room r).on = true) (hr : r.val < s.enabledRooms) :
    ∃ w es, mgmtPut o (roomAddr r 0x7C0) d hw s = State.recorded ((s.dropCapture o).setRoom r { s.room r with
      pan := { (s.room r).pan with gap := d.extractLsb' 0 8 } }) w es := by
  obtain ⟨w, es, happ⟩ := (s.dropCapture o).applyWord_room o r (base := 0x7C0) (j := 0) (roomAddr r 0x7C0) d hw rfl (by decide)
  refine ⟨w, es, ?_⟩
  rw [mgmtPut_room d hw h hon hr (off := 0x7C0) (j := 0) rfl rfl Nat.one_pos rfl (by decide), happ, State.modRoom_def]
  simp only [Room.putWord]
  rw [extractLsb'_writtenWord_rw (by decide) (by decide)]
  rfl

/-- ROOM_TRACE_CTL (R775): the written word waits for the next boundary, its RO bits as they read. -/
theorem mgmtPut_traceCtl {s : State} {o : Origin} {r : RoomId} (d : BitVec 64) (h : PortDue s o [rMgmtWrite])
    (hon : (s.room r).on = true) (hr : r.val < s.enabledRooms) :
    ∃ w es, mgmtPut o (roomAddr r 0xA40) d 0 s = State.recorded ((s.dropCapture o).setRoom r { s.room r with
      trace := { (s.room r).trace with
        pending := some (((s.room r).trace.ctl &&& 0xFF8000F8#64) ||| (d &&& 0xFFFFFFFF007FFF07#64)) } }) w es := by
  obtain ⟨w, es, happ⟩ := (s.dropCapture o).applyWord_room o r (base := 0xA40) (j := 0) (roomAddr r 0xA40) d 0 rfl (by decide)
  refine ⟨w, es, ?_⟩
  rw [mgmtPut_room d 0 h hon hr (off := 0xA40) (j := 0) rfl rfl Nat.two_pos rfl (by decide), happ, State.modRoom_def]
  have hword : (s.dropCapture o).wordAt (.room r) 0xA40 0 = (s.room r).trace.ctl := rfl
  simp only [Room.putWord, hword, writtenWord, BitVec.and_zero, BitVec.or_zero]
  rfl

/-! ## Denied writes (R715) -/

theorem mgmtPut_denied {s : State} {o : Origin} {addr : Nat} (d hw : BitVec 64) (h : PortDue s o [])
    (hr : s.may o rMgmtWrite = false) (hm : addr ∈ [thrAddr 0x100, thrAddr 0x480, porchAddr 0 0x40]) :
    mgmtPut o addr d hw s = (s.dropCapture o).denyOf o rMgmtWrite addr := by
  simp only [List.mem_cons, List.not_mem_nil, or_false] at hm
  rcases hm with rfl | rfl | rfl
  · exact mgmtPut_eq_denyOf d hw h.queue h.booted (.threshold (base := 0x100) rfl (by decide) rfl Nat.one_pos) hr
  · exact mgmtPut_eq_denyOf d hw h.queue h.booted (.threshold (base := 0x480) rfl (by decide) rfl Nat.two_pos) hr
  · exact mgmtPut_eq_denyOf d hw h.queue h.booted (.porch (base := 0x40) rfl (by decide) rfl Nat.one_pos) hr

end Sys2Proof.Machine

/-! SUPPORT. Reads and their captures (R786), the Mirror port (R758, R759), and the obligation about management accesses. -/

namespace Sys2Proof.Machine

/-! ## Captures (R786) -/

/-- The state with the captures of its management ports replaced. -/
def State.withCaps (s : State) (caps : List Capture) : State :=
  { s with thr := { s.thr with ports := { s.thr.ports with caps := caps } } }

/-- A read with its rights changes the captures of the ports and nothing else. -/
theorem State.mgmtRead_eq_withCaps {s : State} {o : Origin} (addr : Nat) (hread : s.may o rMgmtRead = true)
    (hgb : s.may o rGbRead = true) : ∃ caps, (s.mgmtRead o addr).2.2 = s.withCaps caps := by
  have hdrop : ∃ caps, s.dropCapture o = s.withCaps caps := ⟨_, rfl⟩
  have hset : ∀ c, ∃ caps, s.setCapture c = s.withCaps caps := fun c => ⟨_, rfl⟩
  unfold State.mgmtRead
  split
  · exact hdrop
  · next a _ =>
    have hnone : (s.needs a.block a.off a.base 0 false 0).find? (fun r => !(s.may o r)) = none := by
      rw [List.find?_eq_none]
      intro r hm
      have hr : r = rMgmtRead ∨ r = rGbRead := by
        simp only [State.needs, Bool.false_eq_true, if_false, Bool.not_false, if_true, List.append_nil, List.mem_append,
          List.mem_singleton] at hm
        rcases hm with hm | hm
        · exact .inl hm
        · split at hm
          · exact .inr (List.mem_singleton.1 hm)
          · cases hm
      rcases hr with rfl | rfl
      · simp [hread]
      · simp [hgb]
    simp only [hnone]
    split
    · exact hdrop
    · split
      · split
        · exact hdrop
        · exact hset _
      · split
        · split
          · exact hset _
          · exact hset _
        · exact ⟨s.thr.ports.caps, rfl⟩

theorem State.capture_setCapture (s : State) (c : Capture) : (s.setCapture c).capture c.origin = some c := by
  have hnone : (s.thr.ports.caps.filter fun x => x.origin != c.origin).find? (fun x => x.origin == c.origin) = none := by
    simp [List.find?_eq_none]
  simp [State.setCapture, State.capture, State.dropCapture, List.find?_append, hnone]

/-- A read of word 0 of THRESH_LOAD_STATUS captures its four words. -/
theorem mgmtReadCapture_loadStatus {s : State} {o : Origin} (h : PortDue s o [rMgmtRead, rGbRead]) :
    mgmtReadCapture o (devAddr (thrAddr 0x300)) s =
      s.setCapture { origin := o, base := thrAddr 0x300, words := s.loadStatus, lastW := 0 } := by
  have hn : s.Names (thrAddr 0x300) .threshold 0x300 0x300 s.loadStatus :=
    .threshold rfl (by decide) rfl (by simp [State.loadStatus])
  have hread : s.may o rMgmtRead = true := h.rights _ (by simp)
  have hnone : (s.needs .threshold 0x300 0x300 0 false 0).find? (fun r => !(s.may o r)) = none := by
    simp [State.needs, isGbReg, hread]
  have hlen : s.loadStatus.length = 4 := by simp [State.loadStatus]
  have hon : s.blockOn .threshold = true := rfl
  unfold mgmtReadCapture State.mgmtRead
  rw [h.queue, if_pos rfl, devAddr_toNat (by decide)]
  simp only [hn.mgmtAt_eq h.booted, hnone, hon, hlen]
  simp

/-! ## The Mirror port (R758, R759) -/

theorem Porch.port_setPort {x : Porch} {n : Nat} (q : Port) (h : n < 16) : (x.setPort n q).port n = q := by
  simp [Porch.port, Porch.setPort, h, List.getD_eq_getElem?_getD]

@[simp] theorem State.porch_setPorch (s : State) (p : PorchId) (x : Porch) : (s.setPorch p x).porch p = x := by
  simp [State.porch, State.setPorch]

/-- The state with its Mirror port replaced. -/
def State.setMirrorPort (s : State) (q : Port) : State :=
  s.modPorch (porchOf s.mir.port) fun x => x.setPort (portIn s.mir.port) q

@[simp] theorem State.mirrorPort_setMirrorPort (s : State) (q : Port) : (s.setMirrorPort q).mirrorPort = q := by
  have hn : portIn s.mir.port < 16 := Nat.mod_lt _ (by decide)
  have hp : (s.setMirrorPort q).porch (porchOf s.mir.port) = (s.porch (porchOf s.mir.port)).setPort (portIn s.mir.port) q := by
    simp [State.setMirrorPort, State.modPorch]
  show ((s.setMirrorPort q).porch (porchOf s.mir.port)).port (portIn s.mir.port) = q
  rw [hp, Porch.port_setPort q hn]

theorem State.mirrorPort_clocks (s : State) (pending : List Instr) (now rc : Nat) :
    State.mirrorPort { s with pending := pending, now := now, rc := rc } = s.mirrorPort := rfl

/-- The Mirror port that is enabled begins its bring-up. -/
theorem State.mirrorSwitch_on {s : State} (old : PortId) (h : s.mir.enable = true) :
    ∃ q, s.mirrorSwitch false old = s.setMirrorPort q ∧ q.mirror = true ∧ q.retraining = true := by
  simp only [State.mirrorSwitch, h, Bool.false_and, Bool.false_eq_true, if_false, Bool.not_false, Bool.true_or, Bool.and_true,
    if_true]
  exact ⟨_, rfl, rfl, rfl⟩

/-- A bring-up that finds the twin makes the Mirror port live. -/
theorem bringUpPort_mirror {s : State} {b : PortBringUp} (hq : s.mirrorPort.mirror = true) (ht : b.trained = true)
    (hm : b.mirror = true) (hr : b.rtt ≤ 112) :
    ∃ q, bringUpPort (porchOf s.mir.port) (portIn s.mir.port) b s = s.setMirrorPort q ∧ q.live = true ∧ q.mirror = true := by
  have hu : ((s.porch (porchOf s.mir.port)).port (portIn s.mir.port)).upResult b = (true, false) := by
    have hq' : ((s.porch (porchOf s.mir.port)).port (portIn s.mir.port)).mirror = true := hq
    simp [Port.upResult, hq', ht, hm, hr]
  unfold bringUpPort
  simp only [hu, Bool.false_eq_true, if_false]
  exact ⟨_, rfl, rfl, hq⟩

/-- THRESH_MIRROR_CTL needs MGMT_WRITE alone. -/
theorem mgmtPut_mirrorCtl {s : State} {o : Origin} (d : BitVec 64) (h : PortDue s o [rMgmtWrite]) :
    mgmtPut o (thrAddr 0x4C0) d 0 s = ((s.dropCapture o).applyWord o .threshold 0x4C0 0 (thrAddr 0x4C0) d 0).2 :=
  mgmtPut_threshold_plain (off := 0x4C0) (j := 0) 0 h rfl rfl (by simp [State.mirrorCtl]) rfl (by decide) rfl
    (by decide) rfl rfl

/-- The fields of a Mirror that a write of THRESH_MIRROR_CTL enables. -/
def Mirror.written (m : Mirror) (d : BitVec 64) : Mirror :=
  { m with
    enable := true, port := Fin.ofNat 32 (field d 1 5), mismatch := m.mismatch && !bit d 7
    stopLate := m.stopLate && !bit d 8, lag := m.lag && !bit d 9 }

/-- ENABLE of the Mirror port in CONFIGURED: the port that PORT names begins its bring-up. -/
theorem mgmtPut_mirrorCtl_enable {s : State} {o : Origin} {d : BitVec 64} (h : PortDue s o [rMgmtWrite])
    (hd : bit d 0 = true) (hjs : s.job.js = .configured) (hoff : s.mir.enable = false)
    (hfab : ((s.porch (porchOf (Fin.ofNat 32 (field d 1 5)))).port (portIn (Fin.ofNat 32 (field d 1 5)))).enable = false) :
    ∃ w es, mgmtPut o (thrAddr 0x4C0) d 0 s =
      (State.recorded { s.dropCapture o with mir := s.mir.written d } w es).mirrorSwitch false s.mir.port := by
  have hstate : (s.dropCapture o).wordState .threshold 0x4C0 0 d = false := by
    have hjs' : (s.dropCapture o).job.js = .configured := hjs
    simp [State.wordState, State.setsDebug, setsGo, hjs']
  have hport : (s.dropCapture o).mirrorIgnored .threshold 0x4C0 0 d = false := by
    simp only [State.mirrorIgnored, Bool.and_eq_false_iff]
    exact .inr hfab
  obtain ⟨w, es, happ, -⟩ := State.applyWord_threshold (s := s.dropCapture o) (base := 0x4C0) (j := 0) (d := d) o
    (thrAddr 0x4C0) 0 rfl (by decide) hstate hport rfl
  have hoff' : (s.dropCapture o).mir.enable = false := hoff
  refine ⟨w, es, ?_⟩
  rw [mgmtPut_mirrorCtl d h, happ, if_pos rfl, hoff']
  simp only [State.putThr]
  rw [bit_writtenWord_rw (by decide) (by decide), bit_writtenWord_w1c (by decide) (by decide),
    bit_writtenWord_w1c (by decide) (by decide), bit_writtenWord_w1c (by decide) (by decide), field_eq_toNat_extractLsb',
    extractLsb'_writtenWord_rw (by decide) (by decide), ← field_eq_toNat_extractLsb', State.wordAt_mirrorCtl_mismatch,
    State.wordAt_mirrorCtl_stopLate, State.wordAt_mirrorCtl_lag, hd]
  simp only [bit_zero, Bool.or_false]
  rfl

/-- MIRROR_ENABLE_WRITE with a twin on the port: the Mirror port is live. -/
theorem mirrorEnableWrite_live {s : State} {o : Origin} {d : BitVec 64} {b : PortBringUp} (h : PortDue s o [rMgmtWrite])
    (hd : bit d 0 = true) (hjs : s.job.js = .configured) (hoff : s.mir.enable = false)
    (hfab : ((s.porch (porchOf (Fin.ofNat 32 (field d 1 5)))).port (portIn (Fin.ofNat 32 (field d 1 5)))).enable = false)
    (ht : b.trained = true) (hm : b.mirror = true) (hr : b.rtt ≤ 112) :
    ∃ w es fab, mirrorEnableWrite o d b s =
        { State.recorded { s.dropCapture o with mir := s.mir.written d } w es with fab := fab } ∧
      (mirrorEnableWrite o d b s).mirrorPort.live = true ∧ (mirrorEnableWrite o d b s).mirrorPort.mirror = true := by
  obtain ⟨w, es, hput⟩ := mgmtPut_mirrorCtl_enable h hd hjs hoff hfab
  refine ⟨w, es, ?_⟩
  have hon : (State.recorded { s.dropCapture o with mir := s.mir.written d } w es).mir.enable = true := rfl
  generalize State.recorded { s.dropCapture o with mir := s.mir.written d } w es = t at hput hon ⊢
  obtain ⟨q, hswitch, hmirror, hretrain⟩ := State.mirrorSwitch_on s.mir.port hon
  rw [hswitch] at hput
  obtain ⟨q', hup, hlive', hmirror'⟩ := bringUpPort_mirror (s := t.setMirrorPort q)
    ((congrArg Port.mirror (t.mirrorPort_setMirrorPort q)).trans hmirror) ht hm hr
  have hon' : (t.setMirrorPort q).mir.enable = true := hon
  have hwrite : mirrorEnableWrite o d b s = (t.setMirrorPort q).setMirrorPort q' := by
    rw [← hup]
    unfold mirrorEnableWrite
    simp only [hd, h.queue, hput, hoff]
    simp [hmirror, hretrain, hon']
  rw [hwrite, State.mirrorPort_setMirrorPort]
  exact ⟨_, rfl, hlive', hmirror'⟩

/-- Out of CONFIGURED, MIRROR_ENABLE_WRITE of a Mirror that is off ends the origin's capture and changes nothing else. -/
theorem mirrorEnableWrite_refused {s : State} {o : Origin} {d : BitVec 64} (b : PortBringUp) (h : PortDue s o [rMgmtWrite])
    (hd : bit d 0 = true) (hjs : s.job.js ≠ .configured) (hoff : s.mir.enable = false) :
    mirrorEnableWrite o d b s = s.dropCapture o := by
  have hstate : (s.dropCapture o).wordState .threshold 0x4C0 0 d = true := by
    have hjs' : (s.dropCapture o).job.js ≠ .configured := hjs
    simp [State.wordState, hjs']
  have hput : mgmtPut o (thrAddr 0x4C0) d 0 s = s.dropCapture o := by
    rw [mgmtPut_mirrorCtl d h]
    exact State.applyWord_refused o _ 0 hstate
  have hoff' : (s.dropCapture o).mir.enable = false := hoff
  unfold mirrorEnableWrite
  simp only [hd, h.queue, hput, hoff']
  rfl

/-! ## The obligation -/

/-- A command that makes `y` of the package ends in `y` with the queue and the clocks as they stood. -/
theorem exec_of_eq {i : Instr} {s x y : State} (hexec : exec i s = s.done x) (hx : x = y) :
    exec i s = .next { y with pending := s.pending, now := s.now, rc := s.rc } := by
  rw [hexec, hx]
  rfl

theorem mgmtRegWrite_devAddr {n : Nat} (h : n < 0x020007000000) (o : Origin) (d hw : BitVec 64) (s : State) :
    mgmtRegWrite o (devAddr n) d hw s = mgmtPut o n d hw s := by
  rw [mgmtRegWrite, devAddr_toNat h]

/-- DEBUG_ENTER and DEBUG_LEAVE write THRESH_DEBUG_CTL where DEBUG changes. -/
theorem exec_debugChange {s : State} {d : BitVec 64} {on : Bool} (o : Origin) (hon : bit d 0 = on)
    (hdbg : s.smoke.debug = !on) :
    exec (if on then .debugEnter o d else .debugLeave o d) s = s.done (mgmtPut o (thrAddr 0x480) d 0 s) := by
  cases on
  · have hleave : debugLeave o d s = mgmtPut o (thrAddr 0x480) d 0 s := by simp only [debugLeave, hon, hdbg]; rfl
    exact congrArg s.done hleave
  · have henter : debugEnter o d s = mgmtPut o (thrAddr 0x480) d 0 s := by simp only [debugEnter, hon, hdbg]; rfl
    exact congrArg s.done henter

theorem roomAddr_lt (r : RoomId) {off : Nat} (h : off < 0x100000) : roomAddr r off < 0x020007000000 := by
  unfold roomAddr
  omega

/-- Settles O47: each access is one equation of the state it makes, with the ports' captures and the records aside. -/
theorem managementAccessesAct : Obligations.ManagementAccessesAct := by
  intro s o d hw still
  refine ⟨fun h => ⟨?tickStatus, ?jclk, fun r hon hr => ⟨?scrubGap, ?traceCtl⟩⟩, fun h hr addr hm => ?denied,
    fun h => ⟨fun addr => ?readFrame, ?loadStatus⟩, fun h => ?readMark,
    fun h on hd hdbg => ⟨fun hjs => ?debugChanged, fun hjs => ?debugRefused⟩,
    fun h hd b => ⟨fun hjs hoff hfab ht hm hr => ?mirrorLive, fun hjs hoff => ?mirrorRefused⟩⟩
  case tickStatus =>
    obtain ⟨w, es, hput⟩ := mgmtPut_tickStatus d hw h
    exact ⟨_, exec_of_eq rfl ((mgmtRegWrite_devAddr (by decide) o d hw s).trans hput), ⟨rfl, rfl, rfl⟩, rfl, rfl⟩
  case jclk =>
    exact ⟨_, exec_of_eq rfl ((mgmtRegWrite_devAddr (by decide) o d hw s).trans (mgmtPut_jclk d hw h)),
      ⟨rfl, rfl, rfl⟩, rfl, rfl, rfl, rfl⟩
  case scrubGap =>
    obtain ⟨w, es, hput⟩ := mgmtPut_scrubGap d hw h hon hr
    exact ⟨_, exec_of_eq rfl ((mgmtRegWrite_devAddr (roomAddr_lt r (by decide)) o d hw s).trans hput), rfl, rfl,
      State.room_setRoom _ r _, fun k hk => State.room_setRoom_ne _ r k _ hk⟩
  case traceCtl =>
    obtain ⟨w, es, hput⟩ := mgmtPut_traceCtl d h hon hr
    exact ⟨_, exec_of_eq rfl hput, rfl, rfl, State.room_setRoom _ r _, fun k hk => State.room_setRoom_ne _ r k _ hk⟩
  case denied =>
    obtain ⟨g, rp, hdeny, hcode⟩ := (s.dropCapture o).denyOf_eq o rMgmtWrite addr
    have hlt : addr < 0x020007000000 := by
      simp only [List.mem_cons, List.not_mem_nil, or_false] at hm
      rcases hm with rfl | rfl | rfl <;> decide
    exact ⟨_, rp, exec_of_eq rfl ((mgmtRegWrite_devAddr hlt o d hw s).trans ((mgmtPut_denied d hw h hr hm).trans hdeny)),
      ⟨rfl, rfl, rfl⟩, rfl, rfl, rfl, rfl, hcode⟩
  case readFrame =>
    obtain ⟨caps, hread⟩ := State.mgmtRead_eq_withCaps (s := s) addr.toNat (h.rights _ (by simp)) (h.rights _ (by simp))
    have hcap : mgmtReadCapture o addr s = s.withCaps caps := by
      rw [mgmtReadCapture, h.queue, if_pos rfl, hread]
    exact ⟨_, exec_of_eq rfl hcap, rfl⟩
  case loadStatus =>
    exact ⟨_, exec_of_eq rfl (mgmtReadCapture_loadStatus h), State.capture_setCapture s _⟩
  case readMark =>
    obtain ⟨w, es, hput⟩ := mgmtPut_faultReadMark d h
    exact ⟨_, exec_of_eq rfl hput, ⟨rfl, rfl, rfl⟩, rfl, rfl⟩
  case debugChanged =>
    obtain ⟨w, es, hput, e, he, hev⟩ := mgmtPut_debugCtl_admitted h hd hdbg hjs
    exact ⟨_, exec_of_eq (exec_debugChange o hd hdbg) hput, ⟨rfl, rfl, rfl⟩, rfl, rfl, rfl, e,
      List.mem_append_right _ he, hev⟩
  case debugRefused =>
    exact ⟨_, exec_of_eq (exec_debugChange o hd hdbg) (mgmtPut_debugCtl_refused h hd hdbg hjs), ⟨rfl, rfl, rfl⟩, rfl, rfl,
      rfl⟩
  case mirrorLive =>
    obtain ⟨w, es, fab, hwrite, hlive, hmirror⟩ := mirrorEnableWrite_live h hd hjs hoff hfab ht hm hr
    refine ⟨_, exec_of_eq rfl hwrite, ⟨rfl, rfl, rfl⟩, rfl, rfl, rfl, rfl, ?_, ?_, rfl⟩
    · rw [State.mirrorPort_clocks, ← hwrite, hlive]
    · rw [State.mirrorPort_clocks, ← hwrite, hmirror]
  case mirrorRefused =>
    exact ⟨_, exec_of_eq rfl (mirrorEnableWrite_refused b h hd hjs hoff), ⟨rfl, rfl, rfl⟩, rfl, rfl, rfl⟩

end Sys2Proof.Machine

/-! SUPPORT. The part of the state that reports, logs, messages over Palbo and changes of a Room leave alone. -/

namespace Sys2Proof.Machine

/-- The state without its Rooms, fault log, Smoke log, Palbo link and Guestbook. -/
def State.core (s : State) : State :=
  { s with rooms := State.reset.rooms, flt := Faults.reset, smoke := Smoke.reset, pal := Palbo.reset
           thr := { s.thr with guest := Guest.reset } }

theorem State.core_ite {p : Prop} [Decidable p] {a b c : State} (ha : a.core = c) (hb : b.core = c) :
    (if p then a else b).core = c := by
  split
  · exact ha
  · exact hb

theorem State.core_foldl {α : Type} {f : State → α → State} {c : State}
    (hf : ∀ s a, s.core = c → (f s a).core = c) (l : List α) {s : State} (hs : s.core = c) : (l.foldl f s).core = c := by
  induction l generalizing s with
  | nil => exact hs
  | cons a l ih => exact ih (hf s a hs)

@[simp] theorem State.core_setRoom (s : State) (r : RoomId) (x : Room) : (s.setRoom r x).core = s.core := rfl

@[simp] theorem State.core_modRoom (s : State) (r : RoomId) (f : Room → Room) : (s.modRoom r f).core = s.core := rfl

@[simp] theorem State.core_report (s : State) (rp : Report) : (s.report rp).core = s.core := State.core_ite rfl rfl

@[simp] theorem State.core_cmdFault (s : State) (r : RoomId) (w : BitVec 128) (code : Nat) (body : List (BitVec 64))
    (detail : Nat) : (s.cmdFault r w code body detail).core = s.core := State.core_report ..

@[simp] theorem State.core_raiseBare (s : State) (r : RoomId) (code : Nat) (tag : BitVec 16) (body : List (BitVec 64)) :
    (s.raiseBare r code tag body).core = s.core := State.core_report ..

@[simp] theorem State.core_gbPush (s : State) (event origin oid parts : Nat) (body : Bytes) (wing : Nat) :
    (s.gbPush event origin oid parts body wing).core = s.core := rfl

@[simp] theorem State.core_gbFault (s : State) (rp : Report) : (s.gbFault rp).core = s.core :=
  State.core_ite rfl (State.core_ite rfl rfl)

@[simp] theorem State.core_logFault (s : State) (rp : Report) : (s.logFault rp).core = s.core :=
  State.core_ite rfl (State.core_ite rfl rfl)

@[simp] theorem State.core_doorplate (s : State) : s.doorplate.core = s.core := State.core_ite rfl rfl

@[simp] theorem State.core_palReq (s : State) (use : PUse) (op addr : Nat) (multi : Bool) (data : Bytes) (poison : Bool) :
    (s.palReq use op addr multi data poison).core = s.core := State.core_ite (State.core_ite rfl rfl) rfl

@[simp] theorem State.core_reply (s : State) (slot : Nat) (seq : BitVec 32) (opc status phase result : Nat) :
    (s.reply slot seq opc status phase result).core = s.core :=
  (State.core_doorplate _).trans (State.core_ite rfl (State.core_palReq ..))

@[simp] theorem State.core_endStart (s : State) (status result : Nat) : (s.endStart status result).core = s.core :=
  State.core_foldl (fun t _ ht => (t.core_reply ..).trans ht) _ rfl

/-- A report of class 0 or 3 has no effect on the job (R740). -/
theorem State.core_takeReport {s : State} {rp : Report} (hcls : rp.cls = 0 ∨ rp.cls = 3) :
    (s.takeReport rp).core = s.core := by
  have heff (t : State) : t.faultEffect rp = t := by
    unfold State.faultEffect
    rcases hcls with h | h <;> simp [h]
  have hlog (t : State) (ht : t.core = s.core) :
      (if rp.cls = 3 then t else { t with flt := { t.flt with jobCode := rp.code } }).core = s.core := State.core_ite ht ht
  have hgb : (if rp.cls = 3 then s else s.gbFault rp).core = s.core := State.core_ite rfl (s.core_gbFault rp)
  unfold State.takeReport
  simp only [heff]
  have h := hlog _ ((State.core_logFault _ rp).trans hgb)
  exact State.core_ite ((State.core_doorplate _).trans h) h

@[simp] theorem State.core_latchArrive (s : State) (r : RoomId) (latch : Nat) (gen : BitVec 8) (inc : BitVec 16)
    (bits : BitVec 2) (src : BitVec 64) (c : Option (BitVec 128)) :
    (s.latchArrive r latch gen inc bits src c).core = s.core := by
  unfold State.latchArrive
  simp only
  split
  · unfold State.latchFault
    cases c <;> simp
  · rfl

@[simp] theorem core_streamCheck (r : RoomId) (id : Nat) (s : State) : (streamCheck r id s).core = s.core := by
  unfold streamCheck
  split
  · rfl
  · exact State.core_ite rfl (State.core_ite (State.core_latchArrive ..) rfl)

@[simp] theorem core_haltStream (r : RoomId) (id : Nat) (s : State) : (haltStream r id s).core = s.core :=
  core_streamCheck r id _

@[simp] theorem core_haltAll (r : RoomId) (s : State) : (haltAll r s).core = s.core :=
  State.core_foldl (fun t id ht => (core_haltStream r id t).trans ht) _ rfl

@[simp] theorem core_haltStreams (s : State) : (haltStreams s).core = s.core :=
  State.core_foldl (fun t r ht => (core_haltAll r t).trans ht) _ rfl

/-! ## Changes of job state (R681) -/

/-- The job in another job state: leaving RUNNING ends a freeze and a pending command (R809, R810). -/
def Job.enter (j : Job) (new : JState) : Job :=
  let left := decide (j.js = .running)
  { j with js := new, frozen := j.frozen && !left, pend := if left then 0 else j.pend
           pendStick := if left then 0 else j.pendStick }

theorem State.core_setState {s : State} {new : JState} (cause : Nat) (h : s.job.js ≠ new) :
    ∃ fab clk, (s.setState new cause).core =
      State.core { s with job := s.job.enter new, fab := fab, thr := { s.thr with clk := clk } } := by
  unfold State.setState
  rw [if_neg h]
  exact ⟨_, _, (State.core_doorplate _).trans (State.core_ite rfl rfl)⟩

end Sys2Proof.Machine

/-! SUPPORT. The start of a schedule tick (R46, R91), and what else step 5 of a boundary can bring (R306, R807, R809). -/

namespace Sys2Proof.Machine

/-! ## The start of a schedule tick -/

/-- The next edge of every running Wing clock is one period away. -/
def State.Clocked (s : State) : Prop :=
  ∀ w, (s.wing w).clockOn = true → (s.wing w).nextEdge = s.now + (s.wing w).period

theorem State.Clocked.setWing {s : State} (h : s.Clocked) {w : WingId} {g : Wing} (hon : g.clockOn = (s.wing w).clockOn)
    (hedge : g.nextEdge = (s.wing w).nextEdge) (hper : g.period = (s.wing w).period) : (s.setWing w g).Clocked := by
  intro v hv
  by_cases hvw : v = w
  · subst hvw
    rw [State.wing_setWing] at hv ⊢
    rw [hedge, hper]
    exact h v (hon ▸ hv)
  · rw [State.wing_setWing_ne s w v g hvw] at hv ⊢
    exact h v hv

/-- A Wing in step begins its schedule tick with no period of its own. -/
theorem beginWing_of_clocked {s : State} (h : s.Clocked) (w : WingId) :
    ∃ gs, beginWing w s = { s with wings := gs } ∧ State.Clocked { s with wings := gs } := by
  have hedge : ((s.wing w).clockOn && decide ((s.wing w).nextEdge ≠ s.now + (s.wing w).period)) = false := by
    cases hon : (s.wing w).clockOn
    · rfl
    · simp [h w hon]
  unfold beginWing
  simp only [hedge, Bool.false_eq_true, if_false]
  exact ⟨_, rfl, h.setWing rfl rfl rfl⟩

theorem beginWings_of_clocked (ws : List WingId) {s : State} (h : s.Clocked) :
    ∃ gs, ws.foldl (fun s w => beginWing w s) s = { s with wings := gs } := by
  induction ws generalizing s with
  | nil => exact ⟨s.wings, rfl⟩
  | cons w ws ih =>
    obtain ⟨gs, hbegin, hgs⟩ := beginWing_of_clocked h w
    obtain ⟨gs', hrest⟩ := ih hgs
    exact ⟨gs', by rw [List.foldl_cons, hbegin, hrest]⟩

theorem closeWindows_off (r : RoomId) (n : Nat) {s : State} (h : s.mir.enable = false) : closeWindows r n s = s := by
  cases n with
  | zero => rfl
  | succ n => simp [closeWindows, h]

theorem State.Clocked.of_core {s t : State} (h : s.Clocked) (hc : t.core = s.core) : t.Clocked := by
  have hw : t.wings = s.wings := congrArg (fun x => x.wings) hc
  have hn : t.now = s.now := congrArg (fun x => x.now) hc
  unfold State.Clocked State.wing at *
  rwa [hw, hn]

theorem core_closeMirror {s : State} (r : RoomId) (hoff : s.mir.enable = false) : (closeMirror r s).core = s.core := by
  unfold closeMirror
  rw [closeWindows_off r 4096 hoff]
  rfl

/-- Outside Mirror mode and with every Wing in step, a schedule tick begins in Rooms and Wings, and at the present
THRESH_TICK. -/
theorem core_beginTick {s : State} (first : Bool) (hoff : s.mir.enable = false) (h : s.Clocked) :
    ∃ gs, (beginTick first s).core = State.core { s with wings := gs, job := { s.job with boundTick := s.job.tick } } := by
  have hclose : ((allRooms.filter s.roomUp).foldl (fun s r => closeMirror r s) s).core = s.core :=
    State.core_foldl (fun t r ht => (core_closeMirror r ((congrArg (fun x => x.mir.enable) ht).trans hoff)).trans ht) _ rfl
  have hrooms := State.core_foldl (f := fun s r => beginRoom first r s) (fun _ _ ht => ht) (allRooms.filter s.roomUp) hclose
  unfold beginTick
  simp only
  generalize List.foldl (fun s r => beginRoom first r s) _ _ = u at hrooms ⊢
  have hclock : u.Clocked := h.of_core hrooms
  obtain ⟨gs, hgs⟩ := beginWings_of_clocked (s := { u with job := { u.job with boundTick := u.job.tick } }) allWings hclock
  rw [hgs]
  refine ⟨gs, (State.core_foldl (fun t r ht => (State.core_modRoom t r _).trans ht) _ rfl).trans ?_⟩
  exact congrArg (fun x => State.core { x with wings := gs, job := { x.job with boundTick := x.job.tick } }) hrooms

/-! ## Step 5: what a boundary brings (R306, R807, R809) -/

/-- The waiting command names the coming schedule tick or an earlier one, or the job is frozen. -/
def Job.pendDue (j : Job) : Bool := decide (j.pend ≠ 0#2) && (j.frozen || !((j.stick + 1).ult j.pendStick))

theorem nextTick_unfinished {s : State} (h : s.job.js ≠ .running ∨ s.allComplete = false) : nextTick s = s := by
  unfold nextTick
  rcases h with h | h <;> simp [h]

theorem nextTick_finished {s : State} (hrun : s.job.js = .running) (hall : s.allComplete = true) :
    nextTick s =
      if s.job.pendDue then (if s.job.pend = 1#2 then quiesceNow s else if s.job.frozen then s else freezeNow s)
      else if s.job.frozen then s
      else beginTick false { s with job := { s.job with stick := s.job.stick + 1 } } := by
  unfold nextTick
  simp only [hrun, hall, ne_eq, not_true_eq_false, decide_false, Bool.not_true, Bool.or_self, Bool.false_eq_true, if_false]
  rfl

end Sys2Proof.Machine

/-! SUPPORT. What a boundary does before the next schedule tick (R62 steps 1 to 4). -/

namespace Sys2Proof.Machine

/-! ## Deadlines (R61, R63, R67, R69) -/

/-- The job without its record of misses, overruns and slip. -/
def Job.unmarked (j : Job) : Job :=
  { j with miss := false, overrun := false, missCount := 0, missNow := false, missBound := 0, droppedB := 0, slipMax := 0 }

/-- The core of the state with its job unmarked. -/
def State.plan (s : State) : State := State.core { s with job := s.job.unmarked }

theorem State.plan_of_core {s t : State} (h : t.core = s.core) : t.plan = s.plan :=
  congrArg (fun x => { x with job := x.job.unmarked }) h

theorem State.plan_takeReport {s : State} {rp : Report} (hcls : rp.cls = 0 ∨ rp.cls = 3) : (s.takeReport rp).plan = s.plan :=
  State.plan_of_core (State.core_takeReport hcls)

theorem plan_missCheck (s : State) : (missCheck s).plan = s.plan := by
  unfold missCheck
  simp only
  split
  · rfl
  · split
    · split <;> rfl
    · split
      · exact (State.plan_takeReport (.inl rfl)).trans rfl
      · rfl

theorem plan_overrunCheck (shift : Nat) (s : State) : (overrunCheck shift s).plan = s.plan := by
  unfold overrunCheck
  split
  · rfl
  · exact (State.plan_takeReport (.inr rfl)).trans rfl

/-- In real-time mode a boundary that finds the schedule tick unfinished is a miss. -/
theorem missCheck_miss {s : State} (hrun : s.job.js = .running) (hrt : s.job.rt = true) (hfrz : s.job.frozen = false)
    (hall : s.allComplete = false) (hnow : s.job.missNow = false) :
    (missCheck s).job =
      { s.job with
        miss := true, missCount := satAdd s.job.missCount 1, missNow := true, missBound := s.job.tick, droppedB := 1 } := by
  simp [missCheck, hrun, hrt, hfrz, hall, hnow]

theorem overrunCheck_realTime (shift : Nat) {s : State} (hrt : s.job.rt = true) : overrunCheck shift s = s := by
  simp [overrunCheck, hrt]

/-! ## What waits for a boundary -/

/-- Steps 1 and 2: THRESH_TICK advances by one, the next boundary is placed, and the slip counters are latched. -/
def State.advanced (s : State) (b : Nat) : State :=
  latchSlip { s with
    wings := s.wings.map fun (g : Wing) => { g with perB := g.periods }
    job := { s.job with tick := s.job.tick + 1, lastBound := b, bound := b + s.tickRc }
    thr := { s.thr with clk := { s.thr.clk with tickSet := none } } }

/-- No STOP of the Wings, no peer's fault, no Mirror mode and no alignment waits for the boundary. -/
structure State.Undisturbed (s : State) : Prop where
  stopAll : s.thr.clk.stopAll = false
  peer    : s.thr.stw.peer = none
  mirror  : s.mir.enable = false
  align   : s.alignPeriod = 0

theorem State.Undisturbed.of_plan {s t : State} (h : s.Undisturbed) (hp : t.plan = s.plan) : t.Undisturbed where
  stopAll := (congrArg (fun x => x.thr.clk.stopAll) hp).trans h.stopAll
  peer := (congrArg (fun x => x.thr.stw.peer) hp).trans h.peer
  mirror := (congrArg (fun x => x.mir.enable) hp).trans h.mirror
  align := (congrArg State.alignPeriod hp).trans h.align

theorem State.Undisturbed.checks {s : State} (h : s.Undisturbed) : rootCheck (mirrorFault (peerFault (stopWings s))) = s := by
  have hstop : stopWings s = s := by simp [stopWings, h.stopAll]
  have hpeer : peerFault s = s := by simp [peerFault, h.peer]
  have hmirror : mirrorFault s = s := by simp [mirrorFault, h.mirror]
  rw [hstop, hpeer, hmirror]
  simp [rootCheck, h.align]

/-- Undisturbed and with no tick set, a boundary looks for its deadlines and turns to the next schedule tick. -/
theorem tickBoundary_eq {s : State} {b : Nat} (hb : s.nextBound = some b) (hrc : b ≤ s.rc) (hset : s.thr.clk.tickSet = none)
    (h : s.Undisturbed) :
    ∃ u, tickBoundary s = nextTick u ∧ u.core = (overrunCheck (b - s.job.bound) (missCheck (s.advanced b))).core := by
  have hadv : (s.advanced b).Undisturbed := ⟨h.stopAll, h.peer, h.mirror, h.align⟩
  have hplan : (overrunCheck (b - s.job.bound) (missCheck (s.advanced b))).plan = (s.advanced b).plan :=
    (plan_overrunCheck _ _).trans (plan_missCheck _)
  have hdue := hadv.of_plan hplan
  unfold tickBoundary
  unfold State.advanced at hdue ⊢
  rw [hb]
  simp only [if_neg (Nat.not_lt.2 hrc), hset, Option.isSome_none, Bool.false_eq_true, if_false]
  generalize overrunCheck _ _ = d at hdue ⊢
  have htrace := State.core_foldl (f := fun s r => s.modRoom r fun rm => { rm with trace := rm.trace.apply })
    (fun _ _ ht => ht) (allRooms.filter d.roomUp) (rfl : d.core = d.core)
  generalize List.foldl _ _ _ = e at htrace ⊢
  rw [(hdue.of_plan (State.plan_of_core htrace)).checks]
  refine ⟨_, rfl, ?_⟩
  split
  · exact e.core_doorplate.trans htrace
  · exact e.core_doorplate.trans htrace
  · exact htrace

/-! ## The Wings at a boundary -/

theorem State.allComplete_map {s t : State} {f : Wing → Wing} (hw : t.wings = s.wings.map f)
    (hf : ∀ g, (f g).active = g.active ∧ (f g).done = g.done) : t.allComplete = s.allComplete := by
  unfold State.allComplete
  rw [hw, Vector.toList_map, List.all_map]
  congr 1
  funext g
  simp [hf g]

theorem State.Clocked.map {s t : State} (h : s.Clocked) {f : Wing → Wing} (hw : t.wings = s.wings.map f)
    (hnow : t.now = s.now)
    (hf : ∀ g, (f g).clockOn = g.clockOn ∧ (f g).nextEdge = g.nextEdge ∧ (f g).period = g.period) : t.Clocked := by
  intro w
  have hwing : t.wing w = f (s.wing w) := by simp [State.wing, hw]
  obtain ⟨hon, hedge, hper⟩ := hf (s.wing w)
  rw [hwing, hon, hedge, hper, hnow]
  exact h w

/-- What a boundary makes of a Wing. -/
def Wing.passed (stick : BitVec 64) (g : Wing) : Wing :=
  let g := { g with perB := g.periods }
  if g.doneNow then g.latch stick else g

theorem State.wings_advanced (s : State) (b : Nat) : (s.advanced b).wings = s.wings.map (Wing.passed s.job.stick) := by
  unfold State.advanced latchSlip
  simp only [Vector.map_map]
  rfl

theorem Wing.passed_complete (stick : BitVec 64) (g : Wing) :
    (g.passed stick).active = g.active ∧ (g.passed stick).done = g.done := by
  unfold Wing.passed
  simp only
  split <;> exact ⟨rfl, rfl⟩

theorem Wing.passed_clock (stick : BitVec 64) (g : Wing) :
    (g.passed stick).clockOn = g.clockOn ∧ (g.passed stick).nextEdge = g.nextEdge ∧ (g.passed stick).period = g.period := by
  unfold Wing.passed
  simp only
  split <;> exact ⟨rfl, rfl, rfl⟩

end Sys2Proof.Machine

/-! SUPPORT. A job's first boundary (R631), the boundaries after it, and the obligation about both. -/

namespace Sys2Proof.Machine

/-! ## The first boundary (R45, R46, R631) -/

/-- A job at its first boundary: both tick counters at T0, in the mode that its START named, with nothing recorded. -/
def Job.started (j : Job) (rc tickRc : Nat) : Job :=
  { j with
    rt := j.startRt, tick := j.t0, stick := j.t0, boundTick := j.t0, lastBound := rc, bound := rc + tickRc, ticking := true
    missNow := false, missBound := 0, droppedB := 0, missCount := 0, slipMax := 0, startSet := false, stopped := false }

theorem beginTick_running {s : State} (hjs : s.job.js ≠ .running) (hoff : s.mir.enable = false) (h : s.Clocked) :
    ((beginTick true (s.setState .running 2).mirrorStart).endStart 0 0).mem = s.mem ∧
      ((beginTick true (s.setState .running 2).mirrorStart).endStart 0 0).job =
        { s.job.enter .running with boundTick := s.job.tick } := by
  obtain ⟨fab, clk, hset⟩ := State.core_setState 2 hjs
  have hoff' : (s.setState .running 2).mir.enable = false := (congrArg (fun x => x.mir.enable) hset).trans hoff
  have hmirror : (s.setState .running 2).mirrorStart = s.setState .running 2 := by simp [State.mirrorStart, hoff']
  rw [hmirror]
  have hclock : State.Clocked { s with job := s.job.enter .running, fab := fab, thr := { s.thr with clk := clk } } := h
  obtain ⟨gs, hbegin⟩ := core_beginTick true hoff' (hclock.of_core hset)
  have hcore := (State.core_endStart (beginTick true (s.setState .running 2)) 0 0).trans hbegin
  have hjob : (s.setState .running 2).job = s.job.enter .running := congrArg (fun x => x.job) hset
  refine ⟨(congrArg (fun x => x.mem) hcore).trans (congrArg (fun x => x.mem) hset),
    (congrArg (fun x => x.job) hcore).trans ?_⟩
  exact congrArg (fun j : Job => { j with boundTick := j.tick }) hjob

theorem startJob_job {s : State} (hjs : s.job.js = .loaded) (hoff : s.mir.enable = false) (h : s.Clocked) :
    (startJob s).mem = s.mem ∧ (startJob s).job = (s.job.started s.rc s.tickRc).enter .running := by
  unfold startJob
  refine beginTick_running ?_ hoff h
  simp [hjs]

theorem jobFirstBoundary_due {s : State} (hjs : s.job.js = .loaded) (hset : s.job.startSet = true)
    (hrc : s.job.startRc ≤ s.thr.clk.jclk) (hres : s.thr.clk.residual.toInt.natAbs ≤ 19) (hpeer : s.thr.stw.peer = none) :
    jobFirstBoundary s = startJob s := by
  have hjclk : s.thr.clk.jclk.ult s.job.startRc = false := by simpa [BitVec.ult, BitVec.le_def] using hrc
  have hskew : decide (19 < s.thr.clk.residual.toInt.natAbs) = false := decide_eq_false (Nat.not_lt.2 hres)
  unfold jobFirstBoundary
  simp only [hjs, hset, hjclk, hskew, hpeer, ne_eq, not_true_eq_false, decide_false, Bool.not_true, Bool.or_self,
    Bool.false_eq_true, if_false, Option.isSome_none]

theorem jobFirstBoundary_early {s : State} (h : s.thr.clk.jclk < s.job.startRc ∨ 19 < s.thr.clk.residual.toInt.natAbs) :
    jobFirstBoundary s = s := by
  unfold jobFirstBoundary
  rcases h with h | h
  · have hjclk : s.thr.clk.jclk.ult s.job.startRc = true := by simpa [BitVec.ult, BitVec.lt_def] using h
    simp [hjclk]
  · simp [h]

/-! ## The boundaries after it (R61 to R64, R306, R807, R809) -/

theorem core_quiesceNow {s : State} (hrun : s.job.js = .running) :
    ∃ fab clk, (quiesceNow s).core =
      State.core { s with job := s.job.enter .draining, fab := fab, thr := { s.thr with clk := clk } } := by
  have hjob : (haltStreams s).job = s.job := congrArg (fun x => x.job) (core_haltStreams s)
  obtain ⟨fab, clk, h⟩ := State.core_setState (s := haltStreams s) (new := .draining) 3 (by simp [hjob, hrun])
  exact ⟨fab, clk, h.trans (congrArg (fun x => State.core { x with
    job := x.job.enter .draining, fab := fab, thr := { x.thr with clk := clk } }) (core_haltStreams s))⟩

/-- Memory, THRESH_TICK and the places of the latest and the next boundary stay. -/
structure State.KeepsPlace (s t : State) : Prop where
  mem       : t.mem = s.mem
  tick      : t.job.tick = s.job.tick
  lastBound : t.job.lastBound = s.job.lastBound
  bound     : t.job.bound = s.job.bound

theorem State.KeepsPlace.of_core {s t u : State} (hc : t.core = u.core) (h : s.KeepsPlace u) : s.KeepsPlace t where
  mem := (congrArg (fun x => x.mem) hc).trans h.mem
  tick := (congrArg (fun x => x.job.tick) hc).trans h.tick
  lastBound := (congrArg (fun x => x.job.lastBound) hc).trans h.lastBound
  bound := (congrArg (fun x => x.job.bound) hc).trans h.bound

theorem keepsPlace_nextTick {s : State} (hoff : s.mir.enable = false) (h : s.Clocked) : s.KeepsPlace (nextTick s) := by
  have hsame : s.KeepsPlace s := ⟨rfl, rfl, rfl, rfl⟩
  by_cases hfin : s.job.js = .running ∧ s.allComplete = true
  · obtain ⟨hrun, hall⟩ := hfin
    rw [nextTick_finished hrun hall]
    split
    · split
      · obtain ⟨fab, clk, hquiesce⟩ := core_quiesceNow hrun
        exact State.KeepsPlace.of_core hquiesce ⟨rfl, rfl, rfl, rfl⟩
      · split
        · exact hsame
        · exact ⟨rfl, rfl, rfl, rfl⟩
    · split
      · exact hsame
      · obtain ⟨gs, hbegin⟩ :=
          core_beginTick (s := { s with job := { s.job with stick := s.job.stick + 1 } }) false hoff h
        exact State.KeepsPlace.of_core hbegin ⟨rfl, rfl, rfl, rfl⟩
  · rw [nextTick_unfinished ((Decidable.not_and_iff_not_or_not.1 hfin).imp_right Bool.eq_false_iff.2)]
    exact hsame

/-- A boundary with every Wing complete and no command for it: the next schedule tick, unless the job is frozen. -/
theorem nextTick_free {s : State} (hrun : s.job.js = .running) (hall : s.allComplete = true) (hpend : s.job.pend = 0)
    (hoff : s.mir.enable = false) (h : s.Clocked) :
    (nextTick s).job.js = .running ∧ (nextTick s).job.stick = if s.job.frozen then s.job.stick else s.job.stick + 1 := by
  have hdue : s.job.pendDue = false := by simp [Job.pendDue, hpend]
  rw [nextTick_finished hrun hall, if_neg (by simp [hdue])]
  cases hf : s.job.frozen
  · obtain ⟨gs, hbegin⟩ := core_beginTick (s := { s with job := { s.job with stick := s.job.stick + 1 } }) false hoff h
    exact ⟨(congrArg (fun x => x.job.js) hbegin).trans hrun, congrArg (fun x => x.job.stick) hbegin⟩
  · exact ⟨hrun, rfl⟩

theorem nextTick_quiesce {s : State} (hrun : s.job.js = .running) (hall : s.allComplete = true) (hpend : s.job.pend = 1#2)
    (hdue : s.job.pendDue = true) :
    (nextTick s).job.js = .draining ∧ (nextTick s).job.stick = s.job.stick ∧ (nextTick s).job.pend = 0 := by
  rw [nextTick_finished hrun hall, if_pos hdue, if_pos hpend]
  obtain ⟨fab, clk, hquiesce⟩ := core_quiesceNow hrun
  have hjob : (quiesceNow s).job = s.job.enter .draining := congrArg (fun x => x.job) hquiesce
  simp [hjob, Job.enter, hrun]

theorem nextTick_freeze {s : State} (hrun : s.job.js = .running) (hall : s.allComplete = true) (hpend : s.job.pend = 2)
    (hdue : s.job.pendDue = true) (hf : s.job.frozen = false) : nextTick s = freezeNow s := by
  rw [nextTick_finished hrun hall, if_pos hdue, if_neg (by simp [hpend]), if_neg (by simp [hf])]

theorem Job.pendDue_of_le {j : Job} (hpend : j.pend ≠ 0#2) (h : j.pendStick ≤ j.stick + 1 ∨ j.frozen = true) :
    j.pendDue = true := by
  unfold Job.pendDue
  rw [decide_eq_true hpend, Bool.true_and]
  rcases h with h | h
  · have hult : (j.stick + 1).ult j.pendStick = false := by simpa [BitVec.ult, BitVec.le_def] using h
    rw [hult, Bool.not_false, Bool.or_true]
  · rw [h, Bool.true_or]

/-! ## The obligation -/

theorem exec_eq_self {i : Instr} {s x : State} (hexec : exec i s = s.done x) (hx : x = s) : exec i s = .next s := by
  rw [hexec, hx, State.done_self]

theorem tickBoundary_none {s : State} (h : s.nextBound = none) : tickBoundary s = s := by
  unfold tickBoundary
  rw [h]

theorem tickBoundary_early {s : State} {b : Nat} (h : s.nextBound = some b) (hrc : s.rc < b) : tickBoundary s = s := by
  unfold tickBoundary
  rw [h]
  exact if_pos hrc

/-- Settles O56: a job's first boundary sets its counters, and each later one is the record of a miss and one of the four
things that step 5 can bring. -/
theorem boundariesTurnTheTick : Obligations.BoundariesTurnTheTick := by
  intro s hoff hpeer hclock j
  refine ⟨fun hjs hset => ⟨fun hrc hres => ?first, fun hearly => exec_eq_self rfl (jobFirstBoundary_early hearly)⟩,
    fun hb => exec_eq_self rfl (tickBoundary_none hb),
    fun b hb => ⟨fun hrc => exec_eq_self rfl (tickBoundary_early hb hrc), fun hrc hset hstop halign => ?later⟩⟩
  case first =>
    obtain ⟨hmem, hjob⟩ := startJob_job hjs hoff hclock
    refine ⟨_, exec_of_eq rfl (jobFirstBoundary_due hjs hset hrc hres hpeer), hmem, ?_⟩
    simp [hjob, Job.enter, Job.started, j]
  case later =>
    obtain ⟨u, hu, hcore⟩ := tickBoundary_eq hb hrc hset ⟨hstop, hpeer, hoff, halign⟩
    have hplan : u.plan = (s.advanced b).plan :=
      (State.plan_of_core hcore).trans ((plan_overrunCheck _ _).trans (plan_missCheck _))
    have hjob : u.job.unmarked = Job.unmarked { j with tick := j.tick + 1, lastBound := b, bound := b + s.tickRc } :=
      congrArg (fun x => x.job) hplan
    have hjs : u.job.js = j.js := congrArg (fun x => x.js) hjob
    have hstick : u.job.stick = j.stick := congrArg (fun x => x.stick) hjob
    have hpend : u.job.pend = j.pend := congrArg (fun x => x.pend) hjob
    have hpendStick : u.job.pendStick = j.pendStick := congrArg (fun x => x.pendStick) hjob
    have hfrozen : u.job.frozen = j.frozen := congrArg (fun x => x.frozen) hjob
    have hoffu : u.mir.enable = false := (congrArg (fun x => x.mir.enable) hplan).trans hoff
    have hwings : u.wings = s.wings.map (Wing.passed j.stick) :=
      (congrArg (fun x => x.wings) hplan).trans (s.wings_advanced b)
    have hall : u.allComplete = s.allComplete := State.allComplete_map hwings (Wing.passed_complete j.stick)
    have hclocku : u.Clocked := State.Clocked.map hclock hwings (congrArg (fun x => x.now) hplan) (Wing.passed_clock j.stick)
    have hplace := keepsPlace_nextTick hoffu hclocku
    refine ⟨_, exec_of_eq rfl hu, congrArg Mem.hbm (hplace.mem.trans (congrArg (fun x => x.mem) hplan)),
      hplace.tick.trans (congrArg (fun x => x.tick) hjob), hplace.lastBound.trans (congrArg (fun x => x.lastBound) hjob),
      hplace.bound.trans (congrArg (fun x => x.bound) hjob), fun h => ?unfinished, fun hrun hdone hp => ?free,
      fun hrun hdone hp hdue => ?quiesce, fun hrun hdone hp hdue hf => ?freeze, fun hrun hrt hf hdone hnow => ?miss⟩
    case unfinished =>
      rw [← hjs, ← hall] at h
      simp only [nextTick_unfinished h]
      exact ⟨hjs, hstick⟩
    case free =>
      simpa only [hstick, hfrozen] using nextTick_free (hjs.trans hrun) (hall.trans hdone) (hpend.trans hp) hoffu hclocku
    case quiesce =>
      rw [← hpendStick, ← hstick, ← hfrozen] at hdue
      have hpendDue := Job.pendDue_of_le (by simp [hpend, hp]) hdue
      simpa only [hstick] using nextTick_quiesce (hjs.trans hrun) (hall.trans hdone) (hpend.trans hp) hpendDue
    case freeze =>
      rw [← hpendStick, ← hstick] at hdue
      have hpendDue := Job.pendDue_of_le (by simp [hpend, hp]) (.inl hdue)
      simp only [nextTick_freeze (hjs.trans hrun) (hall.trans hdone) (hpend.trans hp) hpendDue (hfrozen.trans hf)]
      exact ⟨hjs.trans hrun, hstick, rfl, rfl⟩
    case miss =>
      simp only [nextTick_unfinished (.inr (hall.trans hdone))]
      have hmiss := missCheck_miss (s := s.advanced b) hrun hrt hf
        ((State.allComplete_map (s.wings_advanced b) (Wing.passed_complete j.stick)).trans hdone) hnow
      have hlast : u.job = (missCheck (s.advanced b)).job := by
        rw [overrunCheck_realTime _ (by rw [hmiss]; exact hrt)] at hcore
        exact congrArg (fun x => x.job) hcore
      rw [hlast, hmiss]
      exact ⟨rfl, rfl⟩

end Sys2Proof.Machine

/-! SUPPORT. Reset (R71, R125, R126, R690, R691, R737, R776 to R778, R795, R811, R812): what stands in the state, and what its
registers read as. -/

namespace Sys2Proof.Machine

@[simp] theorem State.room_reset (r : RoomId) : State.reset.room r = Room.reset false := by
  simp [State.room, State.reset]

theorem State.inTime_reset : State.reset.inTime := ⟨Nat.le_refl 0, by decide⟩

theorem Room.wf_reset (on : Bool) : (Room.reset on).wf = true := rfl

theorem Memory.wf_reset : Memory.wf State.reset = true := by
  have hrooms : State.reset.rooms.toList.all Room.wf = true := by
    simp [State.reset, Room.wf_reset]
  simp only [Memory.wf, hrooms, Bool.and_true]
  rfl

/-- The Reset columns of the Threshold's registers, by offset. -/
def thrResetWords : List (Nat × List (BitVec 64)) :=
  [(0x000, [1, 0]), (0x040, [0]), (0x080, [0]), (0x140, [0]), (0x180, [0]), (0x1C0, [0]), (0x200, [0]),
    (0x300, [0, 0, 0, 0]), (0x340, [0, 0, 0, 0]), (0x440, [0, 0, 0, 0]), (0x480, [0xFF00, 0]), (0x4C0, [0, 0, 0]),
    (0x500, [0]), (0x540, [0, 0])]

theorem thrReg_reset : ∀ x ∈ thrResetWords, State.reset.thrReg x.1 = some x := by decide +kernel

theorem palReg_reset : State.reset.palReg 0x40 = some [0] ∧ State.reset.palReg 0x80 = some [0, 0, 0] := by decide +kernel

theorem porchReg_reset : ∀ p : PorchId, State.reset.porchReg p 0xC0 = some [0, 0, 0, 0, 0] := by decide +kernel

/-- Settles O59, register by register. -/
theorem resetValues : Obligations.ResetValues := by
  have thr {off : Nat} {ws : List (BitVec 64)} (h : (off, ws) ∈ thrResetWords) : State.reset.thrReg off = some (off, ws) :=
    thrReg_reset _ h
  obtain ⟨hlink, hcounts⟩ := palReg_reset
  refine ⟨rfl, thr (by decide), thr (by decide), thr (by decide), thr (by decide), thr (by decide), thr (by decide),
    thr (by decide), thr (by decide), thr (by decide), thr (by decide), thr (by decide), thr (by decide), thr (by decide),
    thr (by decide), hlink, hcounts, porchReg_reset, fun r => ?_, rfl, State.inTime_reset, Memory.wf_reset⟩
  rw [State.room_reset]
  exact ⟨rfl, rfl, rfl⟩

end Sys2Proof.Machine

/-! SUPPORT. The restart of a Wing clock (R95), where two accesses of one bank are due in the schedule cycle that it begins
(R416, R417). -/

namespace Sys2Proof.Machine

/-- A use of bank 0 in the present schedule cycle. -/
def bankUse (line : Nat) : BankUse := { cyc := 0, bank := 0, line := line, start := 0, word := 0, kind := 0 }

/-- 400 rc after the gating edge of Wing 0's frequency-change stop, with the rail good. Room 0 alone is on; it has no effect, no
run, no freeze and no watch to come, but two reads are put down for one bank in the schedule cycle that the restart begins. -/
def clashingRestart : State :=
  let s := State.reset
  let t := (s.modWing 0 fun g => { g with fstop := some { gateAt := 0, oldM := 20, newM := 20, since := 0 } }).setRoom 0
    { Room.reset true with pan := { Pan.reset with uses := [bankUse 0, bankUse 1] } }
  { t with now := 400 * RCQ, rc := 400, thr := { s.thr with pwr := { s.thr.pwr with rg := 1 } } }

theorem clashingRestart_quiet : ∀ r, (clashingRestart.room r).pend = [] ∧ (clashingRestart.room r).frz = [] ∧
    (clashingRestart.room r).runs = [] ∧ (clashingRestart.room r).wends = [] := by
  decide +kernel

/-- The losing read is reported as a PAN_CONFLICT (R417). -/
theorem wingClockRestart_conflict :
    (wingClockRestart 0 true clashingRestart).flt.queue.map (·.code) = [BitVec.ofNat 16 fcPanConflict] := by decide +kernel

/-- Refutes O57: a restart on time, with the PLL locked and the rail good, can add a report to the fault queue. The statement
asks that the Rooms have no effect, run, freeze or watch to come, and leaves their scheduled bank uses open: in
`clashingRestart` the first gc after the restart arbitrates two uses of one bank, and the loser is a PAN_CONFLICT. -/
theorem not_wingsCompleteStopAndFreeze : ¬ Obligations.WingsCompleteStopAndFreeze := by
  intro h
  obtain ⟨-, hstopped, -⟩ := h clashingRestart 0
  obtain ⟨hrestart, -⟩ := hstopped { gateAt := 0, oldM := 20, newM := 20, since := 0 } rfl rfl rfl
  obtain ⟨-, hlocked⟩ := hrestart true rfl (by decide +kernel) rfl
  obtain ⟨t, hexec, -, -, hflt, -⟩ := hlocked rfl rfl rfl rfl rfl fun r _ => clashingRestart_quiet r
  obtain rfl := Host.Outcome.next.inj hexec
  have hnone : (wingClockRestart 0 true clashingRestart).flt.queue.map (·.code) = [] :=
    congrArg (fun f => f.queue.map (·.code)) hflt
  rw [wingClockRestart_conflict] at hnone
  exact absurd hnone (by decide)

end Sys2Proof.Machine

/-! SUPPORT. Integers among the values of chapter 04: their sums and products are exact, and so is their rounding to FP32
while they lie below 2^24 (R159 to R165). -/

namespace Sys2Proof.Machine

/-- `v` is finite and equal to the integer `z`, which it gives as a multiple of a power of two that is at most one; the sign of
a zero is open (R164). -/
def Val.IsInt (v : Val) (z : Int) : Prop :=
  ∃ (neg : Bool) (k : Nat), v = .fin neg (z.natAbs * 2 ^ k) (-(k : Int)) ∧ (z ≠ 0 → neg = decide (z < 0))

theorem isInt_intVal (z : Int) : (intVal z 0).IsInt z :=
  ⟨decide (z < 0), 0, by simp only [intVal, Nat.pow_zero, Nat.mul_one], fun _ => rfl⟩

theorem isInt_zero (neg : Bool) (k : Nat) : (Val.fin neg 0 (-(k : Int))).IsInt 0 :=
  ⟨neg, k, by simp only [Int.natAbs_zero, Nat.zero_mul], fun h => absurd rfl h⟩

/-! ## Sums and products -/

/-- A signed magnitude of an integer, as a multiple of a smaller power of two. -/
theorem intAt_natAbs {z : Int} {neg : Bool} {k j : Nat} (hneg : z ≠ 0 → neg = decide (z < 0)) (hkj : k ≤ j) :
    intAt neg (z.natAbs * 2 ^ k) (-(k : Int)) (-(j : Int)) = z * ((2 ^ j : Nat) : Int) := by
  have hexp : (-(k : Int) - -(j : Int)).toNat = j - k := by omega
  have hpow : z.natAbs * 2 ^ k * 2 ^ (-(k : Int) - -(j : Int)).toNat = z.natAbs * 2 ^ j := by
    rw [hexp, Nat.mul_assoc, ← Nat.pow_add, Nat.add_sub_cancel' hkj]
  simp only [intAt, hpow, Int.natCast_mul]
  rcases Int.lt_trichotomy z 0 with hz | rfl | hz
  · rw [hneg (Int.ne_of_lt hz), decide_eq_true hz, if_pos rfl, Int.ofNat_natAbs_of_nonpos (Int.le_of_lt hz), Int.neg_mul,
      Int.neg_neg]
  · simp only [Int.natAbs_zero, Int.natCast_zero, Int.zero_mul, Int.neg_zero, ite_self]
  · rw [hneg (Int.ne_of_gt hz), decide_eq_false (Int.not_lt.2 (Int.le_of_lt hz)), if_neg Bool.false_ne_true,
      Int.natAbs_of_nonneg (Int.le_of_lt hz)]

theorem mul_pos_neg_iff {z n : Int} (hn : 0 < n) : z * n < 0 ↔ z < 0 := by
  refine ⟨fun h => Int.not_le.1 fun hz => ?_, fun h => Int.mul_neg_of_neg_of_pos h hn⟩
  exact Int.not_le.2 h (Int.mul_nonneg hz (Int.le_of_lt hn))

theorem Val.IsInt.add {v w : Val} {y z : Int} (hv : v.IsInt y) (hw : w.IsInt z) : (v.add w).IsInt (y + z) := by
  obtain ⟨n, k, rfl, hn⟩ := hv
  obtain ⟨m, j, rfl, hm⟩ := hw
  have hg : (if -(k : Int) ≤ -(j : Int) then -(k : Int) else -(j : Int)) = -((max k j : Nat) : Int) := by
    split <;> omega
  have hpow : (0 : Int) < ((2 ^ max k j : Nat) : Int) := Int.natCast_pos.2 (Nat.two_pow_pos _)
  simp only [Val.add, hg, intAt_natAbs hn (Nat.le_max_left k j), intAt_natAbs hm (Nat.le_max_right k j), ← Int.add_mul]
  by_cases h0 : y + z = 0
  · rw [h0, Int.zero_mul, if_pos rfl]
    exact isInt_zero (n && m) (max k j)
  · have hne : (y + z) * ((2 ^ max k j : Nat) : Int) ≠ 0 := Int.mul_ne_zero h0 (Int.ne_of_gt hpow)
    rw [if_neg hne, Int.natAbs_mul, Int.natAbs_natCast]
    exact ⟨_, max k j, rfl, fun _ => decide_eq_decide.2 (mul_pos_neg_iff hpow)⟩

/-- A unit scale keeps the integer (R161). -/
theorem Val.IsInt.mul_one {v : Val} {z : Int} (hv : v.IsInt z) : (v.mul (.fin false 1 0)).IsInt z := by
  obtain ⟨n, k, rfl, hn⟩ := hv
  exact ⟨n, k, by simp only [Val.mul, Bool.bne_false, Nat.mul_one, Int.add_zero], hn⟩

theorem decide_mul_neg {y z : Int} (h : y * z ≠ 0) : (decide (y < 0) != decide (z < 0)) = decide (y * z < 0) := by
  have hy : y ≠ 0 := fun h0 => h (by rw [h0, Int.zero_mul])
  have hz : z ≠ 0 := fun h0 => h (by rw [h0, Int.mul_zero])
  rcases Int.lt_or_gt_of_ne hy with hy | hy <;> rcases Int.lt_or_gt_of_ne hz with hz | hz
  · rw [decide_eq_true hy, decide_eq_true hz, decide_eq_false (Int.not_lt.2 (Int.le_of_lt (Int.mul_pos_of_neg_of_neg hy hz)))]
    rfl
  · rw [decide_eq_true hy, decide_eq_false (Int.not_lt.2 (Int.le_of_lt hz)), decide_eq_true (Int.mul_neg_of_neg_of_pos hy hz)]
    rfl
  · rw [decide_eq_false (Int.not_lt.2 (Int.le_of_lt hy)), decide_eq_true hz, decide_eq_true (Int.mul_neg_of_pos_of_neg hy hz)]
    rfl
  · rw [decide_eq_false (Int.not_lt.2 (Int.le_of_lt hy)), decide_eq_false (Int.not_lt.2 (Int.le_of_lt hz)),
      decide_eq_false (Int.not_lt.2 (Int.le_of_lt (Int.mul_pos hy hz)))]
    rfl

theorem isInt_mul_intVal (y z : Int) : ((intVal y 0).mul (intVal z 0)).IsInt (y * z) := by
  refine ⟨decide (y < 0) != decide (z < 0), 0, ?_, decide_mul_neg⟩
  rw [Int.natAbs_mul, Nat.pow_zero, Nat.mul_one]
  rfl

theorem Val.IsInt.eq_zero {v : Val} {z : Int} (hv : v.IsInt z) (h : v.isZero = true) : z = 0 := by
  obtain ⟨n, k, rfl, -⟩ := hv
  unfold Val.isZero at h
  split at h
  case h_1 heq =>
    have hmag := (Val.fin.inj heq).2.1
    exact Int.natAbs_eq_zero.1 ((Nat.mul_eq_zero.1 hmag).resolve_right (Nat.ne_of_gt (Nat.two_pow_pos k)))
  case h_2 => exact absurd h Bool.false_ne_true

/-! ## Product sums -/

/-- The product sum of pairs of integers. -/
def intDot (ps : List (Int × Int)) : Int := (ps.map fun p => p.1 * p.2).sum

/-- The products of pairs of integers. -/
def intProds (ps : List (Int × Int)) : List Val := ps.map fun p => (intVal p.1 0).mul (intVal p.2 0)

theorem intDot_nil : intDot [] = 0 := rfl

theorem intDot_cons (p : Int × Int) (ps : List (Int × Int)) : intDot (p :: ps) = p.1 * p.2 + intDot ps := by
  simp only [intDot, List.map_cons, List.sum_cons]

theorem intDot_eq_zero {ps : List (Int × Int)} (hzero : ∀ v ∈ intProds ps, v.isZero = true) : intDot ps = 0 := by
  induction ps with
  | nil => rfl
  | cons p ps ih =>
    obtain ⟨hp, hps⟩ := List.forall_mem_cons.1 hzero
    rw [intDot_cons, (isInt_mul_intVal p.1 p.2).eq_zero hp, ih hps, Int.zero_add]

theorem isInt_foldl_add (ps : List (Int × Int)) {v : Val} {z : Int} (hv : v.IsInt z) :
    ((intProds ps).foldl Val.add v).IsInt (z + intDot ps) := by
  induction ps generalizing v z with
  | nil =>
    rw [intDot_nil, Int.add_zero]
    exact hv
  | cons p ps ih =>
    rw [intDot_cons, ← Int.add_assoc]
    exact ih (hv.add (isInt_mul_intVal p.1 p.2))

/-- R160: the exact sum of products of integers is their sum. -/
theorem isInt_exactSum (ps : List (Int × Int)) : (exactSum (intProds ps)).IsInt (intDot ps) := by
  have hfold := isInt_foldl_add ps (isInt_zero false 0)
  rw [Int.zero_add] at hfold
  by_cases hempty : (intProds ps).isEmpty = true
  · obtain rfl : ps = [] := List.map_eq_nil_iff.1 (List.isEmpty_iff.1 hempty)
    exact isInt_zero false 0
  by_cases hzeros : ((intProds ps).all fun p => p.isZero && p.isNeg) = true
  · have hsum : intDot ps = 0 :=
      intDot_eq_zero fun v hv => (Bool.and_eq_true_iff.1 (List.all_eq_true.1 hzeros v hv)).1
    rw [exactSum, if_neg hempty, if_pos hzeros, hsum]
    exact isInt_zero true 0
  · obtain ⟨n, k, hv, hn⟩ := hfold
    rw [exactSum, if_neg hempty, if_neg hzeros, show (intProds ps).foldl Val.add (.fin false 0 0) = _ from hv]
    dsimp only
    split
    · next h0 =>
      have hsum : intDot ps = 0 :=
        Int.natAbs_eq_zero.1 ((Nat.mul_eq_zero.1 h0).resolve_right (Nat.ne_of_gt (Nat.two_pow_pos k)))
      rw [hsum]
      exact isInt_zero false k
    · exact ⟨n, k, rfl, hn⟩

/-! ## Rounding -/

theorem ratOf_neg (m k : Nat) : ratOf m (-(k : Int)) = (m, 2 ^ k) := by
  unfold ratOf
  split
  · obtain rfl : k = 0 := by omega
    exact Prod.ext (Nat.mul_one m) rfl
  · rw [Int.neg_neg, Int.toNat_natCast]

theorem log2_mul_pow {u : Nat} (k : Nat) (hu : u ≠ 0) : Nat.log2 (u * 2 ^ k) = Nat.log2 u + k := by
  rw [Nat.log2_eq_iff (Nat.mul_ne_zero hu (Nat.ne_of_gt (Nat.two_pow_pos k))), Nat.add_right_comm, Nat.pow_add,
    Nat.pow_add _ (u.log2 + 1)]
  exact ⟨Nat.mul_le_mul_right _ (Nat.log2_self_le hu), Nat.mul_lt_mul_of_pos_right Nat.lt_log2_self (Nat.two_pow_pos k)⟩

theorem floorLog2_mul_pow {u : Nat} (k : Nat) (hu : u ≠ 0) : floorLog2 (u * 2 ^ k) (2 ^ k) = (Nat.log2 u : Int) := by
  have ha : ((Nat.log2 u + k : Nat) : Int) - (k : Int) = (Nat.log2 u : Int) := by omega
  have hge : 2 ^ k * 2 ^ Nat.log2 u ≤ u * 2 ^ k := by
    rw [Nat.mul_comm]
    exact Nat.mul_le_mul_right _ (Nat.log2_self_le hu)
  have hneg : ¬ (Nat.log2 u : Int) < 0 := Int.not_lt.2 (Int.natCast_nonneg _)
  simp only [floorLog2, log2_mul_pow k hu, Nat.log2_two_pow, ha, if_neg hneg, Int.toNat_natCast, decide_eq_true hge, if_true]

/-- A multiple of 2^q, q at most 0, is rounded to itself. -/
theorem roundAt_mul_pow (u k j : Nat) : roundAt .rne (u * 2 ^ k) (2 ^ k) (-(j : Int)) = u * 2 ^ j := by
  have hn : (if -(j : Int) < 0 then u * 2 ^ k * 2 ^ (- -(j : Int)).toNat else u * 2 ^ k) = u * 2 ^ j * 2 ^ k := by
    split
    · rw [Int.neg_neg, Int.toNat_natCast, Nat.mul_right_comm]
    · obtain rfl : j = 0 := by omega
      rw [Nat.pow_zero, Nat.mul_one]
  have hd : (if -(j : Int) < 0 then 2 ^ k else 2 ^ k * 2 ^ (-(j : Int)).toNat) = 2 ^ k := by
    split
    · rfl
    · obtain rfl : j = 0 := by omega
      exact Nat.mul_one _
  have hpos : 0 < 2 ^ k := Nat.two_pow_pos k
  have hgt : decide (2 * 0 > 2 ^ k) = false := decide_eq_false (Nat.not_lt.2 (Nat.zero_le _))
  have heq : (2 * 0 == 2 ^ k) = false := beq_eq_false_iff_ne.2 (Nat.ne_of_lt hpos)
  simp only [roundAt, hn, hd, Nat.mul_div_cancel _ hpos, Nat.mul_mod_left, hgt, heq, Bool.false_and, Bool.or_self,
    Bool.false_eq_true, if_false]

/-- The FP32 form of a nonzero integer below 2^24: 24 significant bits. -/
theorem roundQ_int {u : Nat} (k : Nat) (hu : u ≠ 0) (hlt : u < 2 ^ 24) :
    roundQ fp32.mbits fp32.emin .rne (u * 2 ^ k) (2 ^ k) = (u * 2 ^ (23 - Nat.log2 u), -((23 - Nat.log2 u : Nat) : Int)) := by
  have hlog : Nat.log2 u < 24 := (Nat.log2_lt hu).2 hlt
  have hq : (Nat.log2 u : Int) - (fp32.mbits : Int) = -((23 - Nat.log2 u : Nat) : Int) := by
    have hmbits : fp32.mbits = 23 := rfl
    omega
  have hemin : ¬ (-((23 - Nat.log2 u : Nat) : Int) < fp32.emin) := by
    have hval : fp32.emin = -149 := rfl
    omega
  have h0 : u * 2 ^ k ≠ 0 := Nat.mul_ne_zero hu (Nat.ne_of_gt (Nat.two_pow_pos k))
  simp only [roundQ, if_neg h0, floorLog2_mul_pow k hu, hq, if_neg hemin, roundAt_mul_pow]

theorem roundQ_zero (d : Nat) : roundQ fp32.mbits fp32.emin .rne 0 d = (0, -((149 : Nat) : Int)) := rfl

/-- A magnitude up to 2^24 does not overflow. -/
theorem magLt_maxFin {m : Nat} (j : Nat) (hm : m ≤ 2 ^ 24) : magLt fp32.maxFin.1 fp32.maxFin.2 m (-(j : Int)) = false := by
  have hmax : fp32.maxFin = (2 ^ 24 - 1, 104) := by decide
  have hexp : ¬ (104 : Int) ≤ -(j : Int) := by omega
  have hpow : 2 ^ 1 ≤ 2 ^ ((104 : Int) - -(j : Int)).toNat := Nat.pow_le_pow_right (by decide) (by omega)
  have hle : m ≤ (2 ^ 24 - 1) * 2 ^ ((104 : Int) - -(j : Int)).toNat :=
    calc m ≤ (2 ^ 24 - 1) * 2 ^ 1 := by omega
      _ ≤ (2 ^ 24 - 1) * 2 ^ ((104 : Int) - -(j : Int)).toNat := Nat.mul_le_mul_left _ hpow
  simp only [magLt, hmax, if_neg hexp]
  exact decide_eq_false (Nat.not_lt.2 hle)

/-- The 24 significant bits of a nonzero integer below 2^24. -/
theorem significand_lt {u : Nat} (hu : u ≠ 0) (hlt : u < 2 ^ 24) : u * 2 ^ (23 - Nat.log2 u) < 2 ^ 24 := by
  have hlog : Nat.log2 u < 24 := (Nat.log2_lt hu).2 hlt
  have hexp : u.log2 + 1 + (23 - Nat.log2 u) = 24 := by omega
  calc u * 2 ^ (23 - Nat.log2 u)
      < 2 ^ (u.log2 + 1) * 2 ^ (23 - Nat.log2 u) := Nat.mul_lt_mul_of_pos_right Nat.lt_log2_self (Nat.two_pow_pos _)
    _ = 2 ^ 24 := by rw [← Nat.pow_add, hexp]

/-- R161, R165: an integer below 2^24 is rounded to itself, and does not overflow. -/
theorem isInt_roundF32 {v : Val} {z : Int} (hv : v.IsInt z) (hz : z.natAbs < 2 ^ 24) :
    (roundF32 v).1.IsInt z ∧ (roundF32 v).2 = false := by
  obtain ⟨n, k, rfl, hn⟩ := hv
  simp only [roundF32, ratOf_neg, roundF32Q]
  by_cases h0 : z = 0
  · subst h0
    simp only [Int.natAbs_zero, Nat.zero_mul, roundQ_zero]
    exact ⟨isInt_zero n 149, rfl⟩
  · have hu : z.natAbs ≠ 0 := Int.natAbs_ne_zero.2 h0
    rw [roundQ_int k hu hz]
    simp only [magLt_maxFin _ (Nat.le_of_lt (significand_lt hu hz))]
    exact ⟨⟨n, _, rfl, hn⟩, rfl⟩

/-- The FP32 word of a nonzero integer does not depend on the power of two it is given in. -/
theorem Val.IsInt.toF32_eq {v w : Val} {z : Int} (hv : v.IsInt z) (hw : w.IsInt z) (h0 : z ≠ 0) (hz : z.natAbs < 2 ^ 24) :
    v.toF32 = w.toF32 := by
  obtain ⟨n, k, rfl, hn⟩ := hv
  obtain ⟨m, j, rfl, hm⟩ := hw
  simp only [Val.toF32, ratOf_neg, roundQ_int _ (Int.natAbs_ne_zero.2 h0) hz, hn h0, hm h0]

theorem Val.IsInt.toF32_eq_intToF32 {v : Val} {z : Int} (hv : v.IsInt z) (h0 : z ≠ 0) (hz : z.natAbs < 2 ^ 24) :
    v.toF32 = intToF32 z :=
  hv.toF32_eq (isInt_roundF32 (isInt_intVal z) hz).1 h0 hz

/-- The FP32 word of a zero of either sign. -/
theorem Val.IsInt.toF32_zero {v : Val} (hv : v.IsInt 0) : v.toF32 &&& 0x7FFFFFFF#32 = 0#32 := by
  obtain ⟨n, k, rfl, -⟩ := hv
  simp only [Val.toF32, ratOf_neg, Int.natAbs_zero, Nat.zero_mul, roundQ_zero]
  cases n <;> rfl

/-! ## Pairs of 8-bit integers -/

/-- Pairs of 8-bit integers. -/
def pairs8 (ps : List (Int × Int)) : Prop := ∀ p ∈ ps, (-128 ≤ p.1 ∧ p.1 ≤ 127) ∧ (-128 ≤ p.2 ∧ p.2 ≤ 127)

theorem intDot_zip (a b : List Int) : intDot (a.zip b) = (List.zipWith (· * ·) a b).sum :=
  congrArg List.sum List.map_uncurry_zip_eq_zipWith

theorem intDot_append (ps qs : List (Int × Int)) : intDot (ps ++ qs) = intDot ps + intDot qs := by
  rw [intDot, List.map_append, List.sum_append_int]
  rfl

theorem intDot_take_add_drop (ps : List (Int × Int)) (l : Nat) : intDot (ps.take l) + intDot (ps.drop l) = intDot ps := by
  rw [← intDot_append, List.take_append_drop]

theorem natAbs_mul_le {x y : Int} (hx : -128 ≤ x ∧ x ≤ 127) (hy : -128 ≤ y ∧ y ≤ 127) : (x * y).natAbs ≤ 2 ^ 14 := by
  rw [Int.natAbs_mul]
  calc x.natAbs * y.natAbs ≤ 128 * 128 := Nat.mul_le_mul (by omega) (by omega)
    _ = 2 ^ 14 := rfl

theorem natAbs_intDot_le {ps : List (Int × Int)} (h : pairs8 ps) : (intDot ps).natAbs ≤ 2 ^ 14 * ps.length := by
  induction ps with
  | nil => exact Nat.zero_le _
  | cons p ps ih =>
    obtain ⟨hp, hps⟩ := List.forall_mem_cons.1 h
    have hmul := natAbs_mul_le hp.1 hp.2
    have hrest := ih hps
    rw [intDot_cons, List.length_cons]
    omega

/-! ## Blocks of integers -/

/-- Every product of integers is finite. -/
theorem finite_of_mem_intProds {ps : List (Int × Int)} {v : Val} (h : v ∈ intProds ps) :
    v.isNan = false ∧ v.isInf = false := by
  obtain ⟨p, -, rfl⟩ := List.mem_map.1 h
  exact ⟨rfl, rfl⟩

/-- R160, R161: the block value of pairs of integers with unit scales is their product sum, and it has no flag. -/
theorem blockVal_ints {ps : List (Int × Int)} (hsum : (intDot ps).natAbs < 2 ^ 24) :
    ∃ v, blockVal (ps.map fun p => (intVal p.1 0, intVal p.2 0)) (.fin false 1 0) (.fin false 1 0) = (v, 0#8) ∧
      v.IsInt (intDot ps) := by
  have hprods : (ps.map fun p => (intVal p.1 0, intVal p.2 0)).map (fun p : Val × Val => p.1.mul p.2) = intProds ps :=
    List.map_map
  have hops : (ps.map fun p => (intVal p.1 0, intVal p.2 0)).any (fun p : Val × Val => p.1.isNan || p.2.isNan) = false := by
    refine List.any_eq_false.2 fun q hq => ?_
    obtain ⟨p, -, rfl⟩ := List.mem_map.1 hq
    exact Bool.false_ne_true
  have hone : (Val.fin false 1 0).isNan = false := rfl
  have hnan : (intProds ps).any Val.isNan = false :=
    List.any_eq_false.2 fun v h => Bool.eq_false_iff.1 (finite_of_mem_intProds h).1
  have hinf : (intProds ps).any Val.isInf = false :=
    List.any_eq_false.2 fun v h => Bool.eq_false_iff.1 (finite_of_mem_intProds h).2
  have hmem (n : Bool) : (intProds ps).contains (.inf n) = false :=
    Bool.eq_false_iff.2 fun h => Bool.false_ne_true (finite_of_mem_intProds (List.contains_iff_mem.1 h)).2.symm
  obtain ⟨hval, hovf⟩ := isInt_roundF32 (isInt_exactSum ps).mul_one.mul_one hsum
  refine ⟨_, ?_, hval⟩
  simp only [blockVal, hprods, hops, hnan, hinf, hmem, hone, hovf, Bool.or_self, Bool.and_self, Bool.false_eq_true, if_false]
  rfl

/-! ## Chains of integers -/

/-- R162: an addition of the chain, on integers. -/
theorem chainAdd_int {v w : Val} {y z : Int} (hv : v.IsInt y) (hw : w.IsInt z) (hsum : (y + z).natAbs < 2 ^ 24) :
    ∃ x, chainAdd v w = (x, 0#8) ∧ x.IsInt (y + z) := by
  obtain ⟨hval, hovf⟩ := isInt_roundF32 (hv.add hw) hsum
  have hnan : (v.add w).isNan = false := by
    obtain ⟨_, _, h, -⟩ := hv.add hw
    rw [h]
    rfl
  have hadd : chainAdd v w = ((roundF32 (v.add w)).1, 0#8) := by
    simp only [chainAdd, hovf, hnan, Bool.false_and]
    rfl
  exact ⟨_, hadd, hval⟩

/-- The integer that a chain stands at: that of its accumulator, or 0 where nothing is added yet (R162). -/
def accIsInt (acc : Option Val) (z : Int) : Prop :=
  match acc with
  | none => z = 0
  | some v => v.IsInt z

theorem chain_nil_int {acc : Option Val} {z : Int} (hacc : accIsInt acc z) :
    (chain acc []).1.IsInt z ∧ (chain acc []).2 = 0#8 := by
  cases acc with
  | none =>
    obtain rfl : z = 0 := hacc
    exact ⟨isInt_zero false 0, rfl⟩
  | some x => exact ⟨hacc, rfl⟩

theorem chain_cons_int {acc : Option Val} {v : Val} {y z : Int} (hacc : accIsInt acc y) (hv : v.IsInt z)
    (hsum : (y + z).natAbs < 2 ^ 24) (t : List (Val × BitVec 8)) :
    ∃ w, chain acc ((v, 0#8) :: t) = chain (some w) t ∧ w.IsInt (y + z) := by
  cases acc with
  | none =>
    obtain rfl : y = 0 := hacc
    rw [Int.zero_add]
    exact ⟨v, by simp only [chain, BitVec.zero_or], hv⟩
  | some x =>
    obtain ⟨w, hadd, hw⟩ := chainAdd_int hacc hv hsum
    exact ⟨w, by simp only [chain, hadd, BitVec.zero_or], hw⟩

/-! ## Rows of integers -/

/-- The moving elements of pairs of integers, with unit scales. -/
def movInts (ps : List (Int × Int)) : List (Val × Val) := ps.map fun p => (intVal p.1 0, .fin false 1 0)

/-- The stationary elements of pairs of integers, with unit scales. -/
def staInts (ps : List (Int × Int)) : List (Option (Val × Val)) := ps.map fun p => some (intVal p.2 0, .fin false 1 0)

/-- The pairs that take part in the first block (R159). -/
theorem filterMap_zip_ints (ps : List (Int × Int)) (l : Nat) :
    (((movInts ps).take l).zip ((staInts ps).take l)).filterMap (fun p => p.2.map fun q => (p.1, q)) =
      (ps.take l).map fun p => ((intVal p.1 0, .fin false 1 0), (intVal p.2 0, .fin false 1 0)) := by
  simp only [movInts, staInts, ← List.map_take, List.zip_map', List.filterMap_map]
  exact congrFun List.filterMap_eq_map' _

theorem mmBlocks_nil (l free n place : Nat) : mmBlocks l free place n [] [] = [] := by
  induction n generalizing place with
  | zero => rfl
  | succ n ih => simp only [mmBlocks, List.take_nil, List.zip_nil_left, List.filterMap_nil, List.drop_nil, ih]

/-- R159, R161: the first block of rows of integers, and the rest. -/
theorem mmBlocks_ints {l : Nat} (free place n : Nat) {ps : List (Int × Int)} (hl : l ≠ 0) (hps : ps ≠ []) :
    mmBlocks l free place (n + 1) (movInts ps) (staInts ps) =
      blockVal ((ps.take l).map fun p => (intVal p.1 0, intVal p.2 0)) (.fin false 1 0) (.fin false 1 0) ::
        mmBlocks l free (place + 1) n (movInts (ps.drop l)) (staInts (ps.drop l)) := by
  obtain ⟨p, qs, htake⟩ : ∃ p qs, ps.take l = p :: qs := List.exists_cons_of_ne_nil 
    fun h => (List.take_eq_nil_iff.1 h).elim hl hps
  have hmov : movInts (ps.drop l) = (movInts ps).drop l := List.map_drop
  have hsta : staInts (ps.drop l) = (staInts ps).drop l := List.map_drop
  simp only [mmBlocks, filterMap_zip_ints, htake, hmov, hsta]
  simp only [List.map_cons, List.map_map, Function.comp_def, movScale, List.all_map, BEq.rfl, List.all_eq_true, implies_true,
    if_true]

/-- R159 to R162: the chain over the blocks of rows of 8-bit integers keeps the exact sum while that lies below 2^24. -/
theorem chain_mmBlocks_ints {l : Nat} (free n place : Nat) {ps : List (Int × Int)} {acc : Option Val} {z : Int} (hl : l ≠ 0)
    (hlen : ps.length ≤ n * l) (h8 : pairs8 ps) (hacc : accIsInt acc z) (hbound : z.natAbs + 2 ^ 14 * ps.length < 2 ^ 24) :
    (chain acc (mmBlocks l free place n (movInts ps) (staInts ps))).1.IsInt (z + intDot ps) ∧
      (chain acc (mmBlocks l free place n (movInts ps) (staInts ps))).2 = 0#8 := by
  induction n generalizing place ps acc z with
  | zero =>
    obtain rfl : ps = [] := List.length_eq_zero_iff.1 (by omega)
    rw [intDot_nil, Int.add_zero]
    exact chain_nil_int hacc
  | succ n ih =>
    by_cases hnil : ps = []
    · subst hnil
      have hblocks : mmBlocks l free place (n + 1) (movInts []) (staInts []) = [] := mmBlocks_nil ..
      rw [hblocks, intDot_nil, Int.add_zero]
      exact chain_nil_int hacc
    · have hfirst := natAbs_intDot_le fun p hp => h8 p (List.mem_of_mem_take (i := l) hp)
      have hsplit : (ps.take l).length + (ps.drop l).length = ps.length := by
        rw [← List.length_append, List.take_append_drop]
      have hrest : (ps.drop l).length ≤ n * l := by
        rw [List.length_drop, Nat.sub_le_iff_le_add, ← Nat.succ_mul]
        exact hlen
      obtain ⟨v, hblock, hv⟩ := blockVal_ints (ps := ps.take l) (by omega)
      obtain ⟨w, hchain, hw⟩ := chain_cons_int hacc hv (by omega)
        (mmBlocks l free (place + 1) n (movInts (ps.drop l)) (staInts (ps.drop l)))
      rw [mmBlocks_ints free place n hl hnil, hblock, hchain, ← intDot_take_add_drop ps l, ← Int.add_assoc]
      exact ih (place + 1) hrest (fun p hp => h8 p (List.mem_of_mem_drop hp)) hw (by omega)

/-- Settles O26: the chain over the blocks of the pairs keeps the exact sum, which stays below 2^21, and the FP32 word of an
integer below 2^24 depends on that integer alone. -/
theorem integerProductsAreExact : Obligations.IntegerProductsAreExact := by
  intro a b free place hab hlen _ h8 v sum res
  have hmov : a.map v = movInts (a.zip b) := by
    calc a.map v = ((a.zip b).map Prod.fst).map v := by rw [List.map_fst_zip (Nat.le_of_eq hab)]
      _ = movInts (a.zip b) := List.map_map
  have hsta : b.map (fun x => some (v x)) = staInts (a.zip b) := by
    calc b.map (fun x => some (v x)) = ((a.zip b).map Prod.snd).map (fun x => some (v x)) := by
          rw [List.map_snd_zip (Nat.le_of_eq hab.symm)]
      _ = staInts (a.zip b) := List.map_map
  have hpairs : pairs8 (a.zip b) := fun p hp =>
    ⟨h8 _ (List.mem_append_left _ (List.of_mem_zip hp).1), h8 _ (List.mem_append_right _ (List.of_mem_zip hp).2)⟩
  have hzip : (a.zip b).length = a.length := by rw [List.length_zip, ← hab, Nat.min_self]
  have hbound : sum.natAbs < 2 ^ 24 := by
    have hle := natAbs_intDot_le hpairs
    rw [intDot_zip] at hle
    omega
  obtain ⟨hval, hflag⟩ := chain_mmBlocks_ints free (cdiv b.length 32) place (l := 32) (acc := none) (z := 0) (by decide)
    (by unfold cdiv; omega) hpairs rfl (by simp only [Int.natAbs_zero]; omega)
  have hcount : (staInts (a.zip b)).length = b.length := by rw [← hsta, List.length_map]
  have hres : res = chain none (mmBlocks 32 free place (cdiv b.length 32) (movInts (a.zip b)) (staInts (a.zip b))) := by
    change chain none (mmBlocks 32 free place (cdiv (b.map fun x => some (v x)).length 32) _ (b.map fun x => some (v x))) = _
    rw [hmov, hsta, hcount]
  rw [← hres, Int.zero_add, intDot_zip] at hval
  rw [← hres] at hflag
  refine ⟨hflag, fun h0 => hval.toF32_eq_intToF32 h0 hbound, fun h0 => Val.IsInt.toF32_zero ?_⟩
  rwa [← h0]

end Sys2Proof.Machine

/-! SUPPORT. The entry of a stream command's rows into the matrix array (R224 to R231, R233). -/

namespace Sys2Proof.Machine

/-! ## Swaps and claims (R224, R233) -/

theorem bit_extractLsb' {w lo len : Nat} (b : BitVec w) {i : Nat} (h : i < len) :
    bit (b.extractLsb' lo len) i = bit b (lo + i) := by
  simp [bit, h]

theorem Mx.swap_act (m : Mx) (q : BitVec 4) (i : Fin 4) : (m.swap q).act[i] = if bit q i then m.shd[i] else m.act[i] := by
  simp [Mx.swap]

/-- The four slots have two bits each of one byte: for each two slots a fact of arithmetic. -/
theorem Hatch.slot_setSlot (h : Hatch) {m n v : Nat} (hm : m < 4) (hn : n < 4) (hv : v < 4) :
    (h.setSlot m v).slot n = if n = m then v else h.slot n := by
  have hst : h.st.toNat < 256 := h.st.isLt
  simp only [Hatch.slot, Hatch.setSlot, field, setField, nbits, Nat.shiftRight_eq_div_pow, BitVec.toNat_ofNat]
  generalize h.st.toNat = x at hst
  have hm4 : m = 0 ∨ m = 1 ∨ m = 2 ∨ m = 3 := by omega
  by_cases hnm : n = m
  · subst hnm
    rw [if_pos rfl]
    obtain rfl | rfl | rfl | rfl := hm4 <;> simp only [Nat.reduceMul, Nat.reducePow] <;> omega
  · rw [if_neg hnm]
    have hn4 : n = 0 ∨ n = 1 ∨ n = 2 ∨ n = 3 := by omega
    obtain rfl | rfl | rfl | rfl := hm4
    all_goals
      obtain rfl | rfl | rfl | rfl := hn4 <;> simp only [Nat.reduceMul, Nat.reducePow] <;> omega

/-- The slots claimed by a stream command (R233). -/
def Hatch.claim (h : Hatch) (slots : List Nat) (v : Nat) : Hatch := slots.foldl (fun h n => h.setSlot n v) h

theorem Hatch.claim_mem (h : Hatch) (slots : List Nat) (v : Nat) : (h.claim slots v).mem = h.mem := by
  induction slots generalizing h with
  | nil => rfl
  | cons n ns ih => exact ih (h.setSlot n v)

theorem Hatch.slot_claim (h : Hatch) {slots : List Nat} {n v : Nat} (hslots : ∀ m ∈ slots, m < 4) (hn : n < 4) (hv : v < 4) :
    (h.claim slots v).slot n = if n ∈ slots then v else h.slot n := by
  induction slots generalizing h with
  | nil => rfl
  | cons m ms ih =>
    rw [List.forall_mem_cons] at hslots
    have hcons : h.claim (m :: ms) v = (h.setSlot m v).claim ms v := rfl
    rw [hcons, ih _ hslots.2, Hatch.slot_setSlot h hslots.1 hn hv]
    by_cases hnm : n = m <;> simp [hnm]

theorem field_lt {w : Nat} (b : BitVec w) (lo len : Nat) : field b lo len < 2 ^ len := Nat.mod_lt _ (Nat.two_pow_pos len)

theorem mmSlots_lt {c : BitVec 128} {n : Nat} (h : n ∈ mmSlots c) : n < 4 := by
  unfold mmSlots at h
  split at h
  · obtain rfl | h := List.mem_cons.1 h
    · exact field_lt c _ 2
    · rw [List.mem_singleton.1 h]
      exact field_lt c _ 2
  · rw [List.mem_singleton.1 h]
    exact field_lt c _ 2

/-- The Hatch in the first entry gc of a stream command that releases its slots in the gc `rel`, or keeps them (R233). -/
def Hatch.claimed (h : Hatch) (w : BitVec 128) (rel : Nat) : Hatch :=
  let x := h.claim (mmSlots w) (if bit w 48 then 2 else 1)
  if bit w 48 then { x with rel := x.rel ++ (mmSlots w).map fun n => (n, rel) } else x

theorem Hatch.claimed_mem (h : Hatch) (w : BitVec 128) (rel : Nat) : (h.claimed w rel).mem = h.mem := by
  unfold Hatch.claimed
  split <;> exact h.claim_mem _ _

theorem Hatch.slot_claimed (h : Hatch) (w : BitVec 128) (rel : Nat) {n : Nat} (hn : n < 4) :
    (h.claimed w rel).slot n = if n ∈ mmSlots w then (if bit w 48 then 2 else 1) else h.slot n := by
  have hv : (if bit w 48 then 2 else 1) < 4 := by split <;> decide
  rw [← h.slot_claim (fun _ => mmSlots_lt) hn hv]
  unfold Hatch.claimed
  split <;> rfl

theorem Hatch.mem_rel_claimed (h : Hatch) {w : BitVec 128} {rel n : Nat} (hrel : bit w 48 = true) (hn : n ∈ mmSlots w) :
    (n, rel) ∈ (h.claimed w rel).rel := by
  simp [Hatch.claimed, hrel, hn]

/-! ## The first entry gc -/

/-- The entries of a stream command's rows (R227). -/
def State.rowEntries (s : State) (r : RoomId) (id : Nat) (u : Run) : List Pend :=
  (List.range (min (field u.cmd.word 56 7 + 1) (tensorOf (u.descs.headD 0)).yext)).map fun i =>
    { due := s.cyc r + mmEntryAt (opcodeOf u.cmd.word) u.cls i, start := u.start, word := u.cmd.word, eff := .mmRow id i }

/-- R224, R227, R233: the first entry gc of a stream command without a fault. -/
theorem mmEntry_eq {s : State} {r : RoomId} {id : Nat} {u : Run} (hrun : (s.room r).run id = some u)
    (hok : mmEntryErr { s.room r with mx := (s.room r).mx.settle (s.cyc r) } s.tabs u.cmd.word (u.descs.headD 0) u.cls = none) :
    mmEntry r id s = s.setRoom r { s.room r with
      mx := { ((s.room r).mx.settle (s.cyc r)).swap (u.cmd.word.extractLsb' 52 4) with
        entryGc := satAdd ((s.room r).mx.settle (s.cyc r)).entryGc u.e }
      hatch := (s.room r).hatch.claimed u.cmd.word (s.cyc r + u.e + 17)
      pend := (s.room r).pend ++ s.rowEntries r id u } := by
  have hrun' : Room.run { s.room r with mx := (s.room r).mx.settle (s.cyc r) } id = some u := hrun
  simp only [mmEntry, State.room_modRoom, State.modRoom_tabs, hrun', hok]
  simp only [State.modRoom_def, State.setRoom_setRoom]
  rfl

/-! ## The entry gc of a row -/

theorem State.readPtab_of_not_tab (s : State) (r : RoomId) (c : BitVec 128) (fmtId : Nat) {el : Elem} (codes : List Nat)
    (h : ∀ tb, el ≠ .tab tb) : s.readPtab r c fmtId el codes = (false, s) := by
  cases el with
  | tab t => exact absurd rfl (h t)
  | flt _ => rfl
  | int _ _ _ => rfl

theorem Run.rowBad_of_clean {u : Run} (h : ∀ g ∈ u.got, g.bad = false) (bits : Nat) (t : Tensor) (x n y cyc : Nat) :
    u.rowBad bits t x n y cyc = false := by
  have hbad (line : Nat) : u.bad cyc line = false := by
    simpa [Run.bad] using fun g hg _ _ => h g hg
  simp [Run.rowBad, hbad]

/-- The unit scales of an unscaled row, one for each element (R139). -/
theorem Run.rowScales_unscaled (u : Run) {t : Tensor} (h : t.smode = 0) (bits how x n y cyc : Nat) :
    u.rowScales t how x n y cyc = (u.rowCodes bits t x n y cyc).map fun _ => .fin false 1 0 := by
  rw [Run.rowScales, if_pos h, List.map_const', Run.rowCodes, List.length_map, List.length_range]

theorem map_snd_indexed {α β : Type} (l : List α) (f : α → β) : (indexed l).map (fun p => f p.2) = l.map f := by
  have h : (indexed l).map Prod.snd = l := List.map_snd_zip (by simp)
  calc (indexed l).map (fun p => f p.2) = ((indexed l).map Prod.snd).map f := List.map_map.symm
    _ = l.map f := by rw [h]

/-- The codes of moving row `i` as its command read them (R203, R213). -/
def Run.movCodes (u : Run) (bits i : Nat) : List Nat :=
  ((indexed (mmParts (opcodeOf u.cmd.word) u.cls (tensorOf (u.descs.headD 0)))).map fun p =>
    u.rowCodes bits (tensorOf (u.descs.headD 0)) p.2.1 p.2.2 i (u.start + mmReadAt (opcodeOf u.cmd.word) u.cls i p.1)).flatten

/-- The moving elements of row `i` of an unscaled operand. -/
def Run.movRow (u : Run) (el : Elem) (i : Nat) : List (Val × Val) :=
  (u.movCodes el.bits i).map fun k => (el.decode k, .fin false 1 0)

/-- Elements paired with their scales, part by part. -/
theorem Run.zip_rowScales (u : Run) {t : Tensor} (h : t.smode = 0) (el : Elem) (i : Nat) (gc : Nat → Nat)
    (parts : List (Nat × Nat × Nat)) :
    (((parts.map fun p => u.rowCodes el.bits t p.2.1 p.2.2 i (gc p.1)).flatten).map el.decode).zip
        ((parts.map fun p => u.rowScales t 0 p.2.1 p.2.2 i (gc p.1)).flatten) =
      ((parts.map fun p => u.rowCodes el.bits t p.2.1 p.2.2 i (gc p.1)).flatten).map fun k => (el.decode k, .fin false 1 0) := by
  have hscales : (parts.map fun p => u.rowScales t 0 p.2.1 p.2.2 i (gc p.1)).flatten =
      ((parts.map fun p => u.rowCodes el.bits t p.2.1 p.2.2 i (gc p.1)).flatten).map fun _ => .fin false 1 0 := by
    rw [List.map_flatten, List.map_map]
    congr 2
    funext p
    exact u.rowScales_unscaled h ..
  rw [hscales, List.zip_map']

/-- The sums that row `i` makes with the active tile, by product and output: slot, first column, values and flags (R229, R230). -/
def State.rowSums (s : State) (r : RoomId) (u : Run) (el : Elem) (i : Nat) : List (Nat × Nat × List (Val × BitVec 8)) :=
  (mmProds (s.room r).mx.act.toList u.cmd.word).map fun p =>
    (p.slot, p.col0, p.outs.map (mmResult (blockLen ((s.room r).mx.act.toList.getD p.quad MxBuf.reset).smode.toNat 0) s.free
      (i * 8) none ((u.movRow el i).drop p.seg)))

/-- The flags of the sums of row `i`. -/
def State.rowFlags (s : State) (r : RoomId) (u : Run) (el : Elem) (i : Nat) : BitVec 8 :=
  ((s.rowSums r u el i).map fun p => p.2.2.foldl (fun f o => f ||| o.2) 0#8).foldl (fun f g => f ||| g) 0#8

/-- The results of row `i`, each due 14 gc after the row enters (R231). -/
def State.rowResults (s : State) (r : RoomId) (u : Run) (el : Elem) (i : Nat) : List Pend :=
  (s.rowSums r u el i).map fun p =>
    { due := s.cyc r + 14, start := u.start, word := u.cmd.word,
      eff := .hatch p.1 (field u.cmd.word 80 7 + i) p.2.1 (p.2.2.map fun o => o.1.toF32) }

/-- The Room in the entry gc of row `i`, before the end of a command whose last row enters. -/
def State.rowRoom (s : State) (r : RoomId) (u : Run) (el : Elem) (i : Nat) : Room :=
  { (s.room r).setFmt (s.rowFlags r u el i) (tagOf u.cmd.word) with
    pend := (s.room r).pend ++ s.rowResults r u el i }

/-- A running stream command whose rows need no table, no scales and no value of the Hatch, and were read without error. -/
structure State.PlainRow (s : State) (r : RoomId) (id : Nat) (u : Run) (f : Fmt) : Prop where
  run : (s.room r).run id = some u
  fmt : fmtOf s.tabs.ptab (tensorOf (u.descs.headD 0)).fmt = some f
  noTab : ∀ tb, f.elem ≠ .tab tb
  unscaled : (tensorOf (u.descs.headD 0)).smode = 0
  clean : ∀ g ∈ u.got, g.bad = false
  noAcc : bit u.cmd.word 47 = false

/-- R227, R229 to R231: the entry gc of a row. -/
theorem mmRow_eq {s : State} {r : RoomId} {id i : Nat} {u : Run} {f : Fmt} (h : s.PlainRow r id u f) :
    mmRow r id i s = (if i + 1 = min (field u.cmd.word 56 7 + 1) (tensorOf (u.descs.headD 0)).yext
        then (s.setRoom r (s.rowRoom r u f.elem i)).modRoom r (·.endRun id)
        else s.setRoom r (s.rowRoom r u f.elem i)).tickFree := by
  have hbad : ((indexed (mmParts (opcodeOf u.cmd.word) u.cls (tensorOf (u.descs.headD 0)))).any fun p =>
      u.rowBad f.elem.bits (tensorOf (u.descs.headD 0)) p.2.1 p.2.2 i
        (u.start + mmReadAt (opcodeOf u.cmd.word) u.cls i p.1)) = false := by
    simp [Run.rowBad_of_clean h.clean]
  unfold mmRow
  simp only [h.run, h.fmt, Option.map_some, Option.getD_some, State.readPtab_of_not_tab _ _ _ _ _ h.noTab, hbad, h.noAcc,
    Bool.false_or, Bool.false_eq_true, if_false, h.unscaled,
    u.zip_rowScales h.unscaled f.elem i (fun p => u.start + mmReadAt (opcodeOf u.cmd.word) u.cls i p), map_snd_indexed]
  rfl

theorem State.mem_rowResults {s : State} {r : RoomId} {u : Run} (el : Elem) (i : Nat) {p : MmProd}
    (hp : p ∈ mmProds (s.room r).mx.act.toList u.cmd.word) :
    ({ due := s.cyc r + 14, start := u.start, word := u.cmd.word,
       eff := .hatch p.slot (field u.cmd.word 80 7 + i) p.col0 (p.outs.map fun o =>
         (mmResult (blockLen ((s.room r).mx.act.toList.getD p.quad MxBuf.reset).smode.toNat 0) s.free (i * 8) none
           ((u.movRow el i).drop p.seg) o).1.toF32) } : Pend) ∈ s.rowResults r u el i :=
  List.mem_map.2 ⟨_, List.mem_map_of_mem hp, by simp [Function.comp_def]⟩

theorem Room.setFmt_eq (rm : Room) (fl : BitVec 8) (tag : BitVec 16) : ∃ x, rm.setFmt fl tag = { rm with fmt := x } := by
  unfold Room.setFmt
  split
  · exact ⟨rm.fmt, rfl⟩
  · exact ⟨_, rfl⟩

theorem State.rowRoom_eq (s : State) (r : RoomId) (u : Run) (el : Elem) (i : Nat) :
    ∃ x, s.rowRoom r u el i = { s.room r with fmt := x, pend := (s.room r).pend ++ s.rowResults r u el i } := by
  obtain ⟨x, hx⟩ := Room.setFmt_eq (s.room r) (s.rowFlags r u el i) (tagOf u.cmd.word)
  exact ⟨x, by rw [State.rowRoom, hx]⟩

/-- The end of a command's reads drops no result that is on its way to the Hatch. -/
theorem Room.mem_endRun_pend {rm : Room} (id : Nat) {p : Pend} {slot row col : Nat} {vals : List (BitVec 32)} (h : p ∈ rm.pend)
    (heff : p.eff = .hatch slot row col vals) : p ∈ (rm.endRun id).pend := by
  simp [Room.endRun, h, heff]

/-- The entry of a row changes its Room's format status, running commands and effects alone, and its results are on their way. -/
theorem mmRow_eq_setRoom {s : State} {r : RoomId} {id i : Nat} {u : Run} {f : Fmt} (h : s.PlainRow r id u f) :
    ∃ y runs pend, mmRow r id i s = (s.setRoom r { s.room r with fmt := y, runs := runs, pend := pend }).tickFree ∧
      ∀ p ∈ s.rowResults r u f.elem i, p ∈ pend := by
  obtain ⟨y, hy⟩ := s.rowRoom_eq r u f.elem i
  rw [mmRow_eq h, hy]
  split
  · rw [State.modRoom_def, State.room_setRoom, State.setRoom_setRoom]
    refine ⟨y, _, _, rfl, fun p hp => ?_⟩
    obtain ⟨q, -, hq⟩ := List.mem_map.1 hp
    exact Room.mem_endRun_pend (rm := { s.room r with fmt := y, pend := (s.room r).pend ++ s.rowResults r u f.elem i }) id
      (List.mem_append_right _ hp) (congrArg Pend.eff hq).symm
  · exact ⟨y, _, _, rfl, fun p hp => List.mem_append_right _ hp⟩

/-- Settles O25: by the equations of a first entry gc and of a row's entry gc for a command without a fault. -/
theorem matrixRowsEnterAndResult : Obligations.MatrixRowsEnterAndResult := by
  refine ⟨?_, ?_⟩
  · intro s r id u hrun w t mx hok
    refine ⟨_, _, _, mmEntry_eq hrun hok, fun q => ?_, Hatch.claimed_mem .., fun n hn => Hatch.slot_claimed _ _ _ hn,
      fun hrel n hn => Hatch.mem_rel_claimed _ hrel hn⟩
    rw [← bit_extractLsb' w (len := 4) q.isLt]
    exact Mx.swap_act ..
  · intro s r id i u f hrun w t hfmt htab hscale hgot hacc parts codes mov l t'
    obtain ⟨y, runs, pend, hrow, hpend⟩ := mmRow_eq_setRoom (i := i) ⟨hrun, hfmt, htab, hscale, hgot, hacc⟩
    have hroom : t'.room r = { s.room r with fmt := y, runs := runs, pend := pend } := by
      rw [show t' = _ from hrow]
      exact State.room_setRoom ..
    refine ⟨?_, by rw [hroom], by rw [hroom], fun q hq => ?_, fun p hp => ?_⟩
    · rw [hroom]
      exact ⟨rfl, rfl, rfl, rfl, rfl, rfl, rfl, rfl, rfl, rfl, rfl, rfl, rfl, rfl⟩
    · rw [show t' = _ from hrow]
      exact State.room_setRoom_ne _ _ _ _ hq
    · rw [hroom]
      exact hpend _ (State.mem_rowResults f.elem i hp)

end Sys2Proof.Machine

/-! SUPPORT. Reads of the Pantry at the start of a command (R210, R318, R413 to R417, R424 to R426): what they leave alone,
and when a command's first lines are ready. -/

namespace Sys2Proof.Machine

/-! ## The start of a unit's command (R210, R318) -/

theorem UnitDue.atHead {s : State} {r : RoomId} {unit op : Nat} {c : QCmd} (h : UnitDue s r unit op c) :
    s.atHead r unit c = true := by
  simp [State.atHead, h.on, h.adv, h.head, h.unit]

theorem State.begin_eq_started (s : State) (r : RoomId) (unit : Nat) (c : QCmd) (dur lane : Nat) :
    ∃ tr, s.begin r unit c dur lane = s.setRoom r ((s.room r).started s r unit c dur tr) := by
  obtain ⟨tr, h, -⟩ := s.begin_eq r unit c dur lane
  exact ⟨tr, h⟩

theorem Room.queue_setQueue (rm : Room) {unit : Nat} (q : List QCmd) (h : unit < 7) : (rm.setQueue unit q).queue unit = q := by
  simp [Room.queue, Room.setQueue, h]

/-! ## The first error of several (R359, R360) -/

theorem firstErr_eq_none_iff {l : List (Option (Nat × List (BitVec 64)))} : firstErr l = none ↔ ∀ e ∈ l, e = none := by
  simp [firstErr]

theorem rangeErr_none_of_le (idx : Nat) {rs : List (Nat × Nat)} (h : ∀ p ∈ rs, p.1 + p.2 ≤ panSize) :
    rangeErr idx rs = none := by
  rw [rangeErr, Option.map_eq_none_iff, List.find?_eq_none]
  intro p hp
  have := h p hp
  simp
  omega

theorem fmtOf_of_fmtErr {tabs : Tables} {id smode rnd : Nat} {mx : Bool} (h : fmtErr tabs id smode rnd mx = none) :
    ∃ f, fmtOf tabs.ptab id = some f := by
  unfold fmtErr at h
  split at h
  · cases h
  · exact ⟨_, ‹_›⟩

/-! ## Lines that are ready (R416, R426) -/

theorem State.linesReady.mono {s : State} {r : RoomId} {xs ys : List Nat} (h : s.linesReady r ys) (hsub : ∀ l ∈ xs, l ∈ ys) :
    s.linesReady r xs := fun l hl => h l (hsub l hl)

theorem mem_append_of_mem_gcLines {els scs : List Nat} {l : Nat} (h : l ∈ gcLines els scs) : l ∈ els ++ scs := by
  simp only [gcLines, List.mem_append, List.mem_filter, List.mem_eraseDups] at h ⊢
  exact h.imp_right And.left

/-- The lines of `acc` that a command reads in its start gc do not hold it back (R353 item 1). -/
def State.ReadsReady (s : State) (r : RoomId) (w : BitVec 128) (acc : List (Nat × Nat)) : Prop :=
  (s.room r).notReady (tagOf w) false (acc.filter fun a => a.1 == s.cyc r) = none

theorem State.readsReady_of_linesReady {s : State} {r : RoomId} {acc : List (Nat × Nat)} (w : BitVec 128)
    (h : ∀ a ∈ acc, a.1 = s.cyc r → s.linesReady r [a.2]) : s.ReadsReady r w acc := by
  unfold State.ReadsReady Room.notReady
  split
  · rfl
  · rw [Option.map_eq_none_iff, List.find?_eq_none]
    intro a ha
    obtain ⟨hmem, hnow⟩ := List.mem_filter.1 ha
    rw [beq_iff_eq] at hnow
    have hready := h a hmem hnow a.2 (List.mem_singleton_self _)
    rw [hnow]
    obtain h0 | h3 := hready
    · simp [h0]
    · simp [h3]

/-! ## What reads leave alone -/

/-- A running command without the lines it has read. -/
def Run.unread (u : Run) : Run := { u with got := [] }

/-- A Room without what reads of the Pantry change in it: its trace, its effects still to come, the status and the access
bookkeeping of its Pantry, the counters of its Dumbwaiter, the guards of its watches, and the lines its commands have read. -/
def Room.unread (rm : Room) : Room :=
  { rm with
    trace := default
    pend := []
    pan := { rm.pan with status := 0, uses := [], fetched := [] }
    dw := { rm.dw with linesUsed := 0, leadSum := 0, leadReads := 0, leadMin := 0 }
    latch := { rm.latch with guards := [] }
    runs := rm.runs.map Run.unread }

theorem Room.unread_trace (rm : Room) (tr : Trace) : ({ rm with trace := tr } : Room).unread = rm.unread := rfl

theorem Room.unread_pend (rm : Room) (ps : List Pend) : ({ rm with pend := ps } : Room).unread = rm.unread := rfl

theorem Room.unread_pan (rm : Room) (st : BitVec 64) (us : List BankUse) (fe : SMap 64) :
    ({ rm with pan := { rm.pan with status := st, uses := us, fetched := fe } } : Room).unread = rm.unread := rfl

theorem Room.unread_dw (rm : Room) (used sum reads : BitVec 32) (least : BitVec 16) :
    ({ rm with dw := { rm.dw with linesUsed := used, leadSum := sum, leadReads := reads, leadMin := least } } : Room).unread =
      rm.unread := rfl

theorem Room.unread_guards (rm : Room) (gs : List (Nat × Nat × BitVec 16)) :
    ({ rm with latch := { rm.latch with guards := gs } } : Room).unread = rm.unread := rfl

theorem Room.unread_setStatus (rm : Room) (b : Nat) (tag : BitVec 16) (line : Nat) :
    ({ rm with pan := rm.pan.setStatus b tag line } : Room).unread = rm.unread := by
  unfold Pan.setStatus
  exact rm.unread_pan _ rm.pan.uses rm.pan.fetched

theorem Room.unread_addCorr (rm : Room) (n : Nat) (tag : BitVec 16) (line : Nat) :
    ({ rm with pan := rm.pan.addCorr n tag line } : Room).unread = rm.unread := by
  unfold Pan.addCorr
  split
  · rfl
  · exact (Room.unread_pan { rm with pan := rm.pan.setStatus 4 tag line } _ _ _).trans (rm.unread_setStatus 4 tag line)

theorem Room.unread_addGot (rm : Room) (id : Nat) (g : Got) : (rm.addGot id g).unread = rm.unread := by
  have h : (rm.addGot id g).runs.map Run.unread = rm.runs.map Run.unread := by
    rw [Room.addGot, List.map_map]
    congr 1
    funext u
    simp only [Function.comp_apply]
    split <;> rfl
  simp only [Room.unread, h]
  rfl

theorem Room.unread_allowGuards (rm : Room) (line : Nat) : (rm.allowGuards line).unread = rm.unread := by
  unfold Room.allowGuards
  split
  · exact rm.unread_guards _
  · rfl

theorem Room.unread_countUse (rm : Room) (line period : Nat) : (rm.countUse line period).unread = rm.unread := by
  unfold Room.countUse
  simp only
  split
  · rfl
  · exact (Room.unread_dw { rm with pan := { rm.pan with fetched := _ } } _ _ _ _).trans
      (rm.unread_pan rm.pan.status rm.pan.uses _)

/-- A line that is read without a fault. -/
theorem Room.unread_read (rm : Room) (id : Nat) (g : Got) (line period n : Nat) (tag : BitVec 16) :
    ({ ((rm.allowGuards line).countUse line period).addGot id g with
      pan := ((rm.allowGuards line).countUse line period).pan.addCorr n tag line } : Room).unread = rm.unread :=
  calc _ = (((rm.allowGuards line).countUse line period).addGot id g).unread :=
        Room.unread_addCorr (((rm.allowGuards line).countUse line period).addGot id g) n tag line
    _ = rm.unread := by rw [Room.unread_addGot, Room.unread_countUse, Room.unread_allowGuards]

/-- The package with other contents of the fault log and the Smoke detector. -/
def State.withLogs (s : State) (fl : Faults) (sm : Smoke) : State := { s with flt := fl, smoke := sm }

theorem State.withLogs_self (s : State) : s.withLogs s.flt s.smoke = s := rfl

theorem State.withLogs_withLogs (s : State) (fl fl' : Faults) (sm sm' : Smoke) :
    (s.withLogs fl sm).withLogs fl' sm' = s.withLogs fl' sm' := rfl

theorem State.room_withLogs (s : State) (fl : Faults) (sm : Smoke) (r : RoomId) : (s.withLogs fl sm).room r = s.room r := rfl

theorem State.setRoom_withLogs (s : State) (fl : Faults) (sm : Smoke) (r : RoomId) (x : Room) :
    (s.withLogs fl sm).setRoom r x = (s.setRoom r x).withLogs fl sm := rfl

/-- The package without what reads of the Pantry in Room `r` change: in the Room, in the fault log and in the Smoke detector. -/
def State.unread (s : State) (r : RoomId) : State := (s.setRoom r (s.room r).unread).withLogs default default

theorem State.unread_withLogs (s : State) (fl : Faults) (sm : Smoke) (r : RoomId) :
    (s.withLogs fl sm).unread r = s.unread r := rfl

theorem State.unread_setRoom {s : State} {r : RoomId} {x : Room} (h : x.unread = (s.room r).unread) :
    (s.setRoom r x).unread r = s.unread r := by
  rw [State.unread, State.room_setRoom, State.setRoom_setRoom, h, State.unread]

theorem State.unread_modRoom {s : State} {r : RoomId} {f : Room → Room} (h : (f (s.room r)).unread = (s.room r).unread) :
    (s.modRoom r f).unread r = s.unread r :=
  State.unread_setRoom h

theorem State.unread_smokeRep (s : State) (r : RoomId) (room : Option RoomId) (check : Nat) (t u : BitVec 16) (d : Nat) :
    (s.smokeRep room check t u d).unread r = s.unread r := by
  obtain ⟨k, h⟩ := s.smokeRep_eq room check t u d
  rw [h]
  exact s.unread_withLogs s.flt k r

theorem State.unread_cmdFault (s : State) (r : RoomId) (c : BitVec 128) (code : Nat) (body : List (BitVec 64)) :
    (s.cmdFault r c code body).unread r = s.unread r := by
  obtain ⟨rp, tr, h, -⟩ := s.cmdFault_eq r c code body 0
  rw [h]
  exact (State.unread_withLogs _ _ s.smoke r).trans (State.unread_setRoom (Room.unread_trace _ tr))

theorem State.unread_galReport (s : State) (r : RoomId) (c : BitVec 128) (line code : Nat) (winner : BitVec 16) :
    (s.galReport r c line code winner).unread r = s.unread r := by
  have hstatus (b : Nat) : (s.modRoom r fun rm => { rm with pan := rm.pan.setStatus b (tagOf c) line }).unread r = s.unread r :=
    State.unread_modRoom (Room.unread_setStatus ..)
  unfold State.galReport
  simp only
  rw [State.unread_cmdFault]
  split
  · exact (State.unread_smokeRep ..).trans (hstatus _)
  · split
    · exact (State.unread_smokeRep ..).trans (hstatus _)
    · exact hstatus _

theorem State.unread_loseUse (s : State) (r : RoomId) (u : BankUse) (winner : BitVec 16) :
    (s.loseUse r u winner).unread r = s.unread r := by
  unfold State.loseUse
  simp only
  rw [State.unread_galReport]
  exact State.unread_modRoom ((Room.unread_pan { s.room r with pend := _ } (s.room r).pan.status _ (s.room r).pan.fetched).trans
    (Room.unread_pend _ _))

theorem State.unread_claim (s : State) (r : RoomId) (c : BitVec 128) (start line cyc kind : Nat) :
    (s.claim r c start line cyc kind).2.unread r = s.unread r := by
  have hput (t : State) (use : BankUse) : (t.modRoom r fun rm => { rm with pan := { rm.pan with
      uses := use :: rm.pan.uses } }).unread r = t.unread r :=
    State.unread_modRoom (Room.unread_pan _ _ _ _)
  unfold State.claim
  simp only
  split
  · exact hput s _
  · split
    · exact hput s _
    · split
      · exact (hput _ _).trans (s.unread_loseUse r _ _)
      · exact s.unread_galReport r _ _ _ _

theorem State.unread_smokeRead (s : State) (r : RoomId) (c : BitVec 128) (line cyc : Nat) :
    (s.smokeRead r c line cyc).unread r = s.unread r := by
  unfold State.smokeRead
  split
  · exact s.unread_smokeRep ..
  · rfl

theorem State.unread_grab (s : State) (r : RoomId) (c : BitVec 128) (id line : Nat) (lost : Bool) :
    (s.grab r c id line lost).unread r = s.unread r := by
  have hread (bad : Bool) (n : Nat) : ((s.smokeRead r c line (s.cyc r)).modRoom r fun rm =>
      { ((rm.allowGuards line).countUse line (s.wing (wingOf r)).periods).addGot id
          { cyc := s.cyc r, line := line, bytes := (s.room r).lineAt line (s.cyc r), bad := bad } with
        pan := ((rm.allowGuards line).countUse line (s.wing (wingOf r)).periods).pan.addCorr n (tagOf c) line }).unread r =
        s.unread r :=
    (State.unread_modRoom (Room.unread_read ..)).trans (s.unread_smokeRead ..)
  unfold State.grab
  simp only
  split
  · exact State.unread_modRoom (Room.unread_addGot _ _ _)
  · split
    · exact (State.unread_modRoom (Room.unread_addGot _ _ _)).trans (s.unread_galReport ..)
    · split
      · exact (State.unread_cmdFault ..).trans ((State.unread_modRoom (Room.unread_setStatus ..)).trans (hread ..))
      · exact hread ..

/-- The reads of a command change nothing but what `State.unread` leaves out. -/
theorem State.unread_reads (s : State) (r : RoomId) (c : BitVec 128) (id : Nat) (acc : List (Nat × Nat)) :
    (s.reads r c id acc).unread r = s.unread r := by
  induction acc generalizing s with
  | nil => rfl
  | cons a as ih =>
    have hone : (if a.1 = (s.claim r c (s.cyc r) a.2 a.1 0).2.cyc r
        then (s.claim r c (s.cyc r) a.2 a.1 0).2.grab r c id a.2 (!(s.claim r c (s.cyc r) a.2 a.1 0).1)
        else (s.claim r c (s.cyc r) a.2 a.1 0).2.addPend r a.1 c (.grab id a.2 (!(s.claim r c (s.cyc r) a.2 a.1 0).1))).unread r
        = s.unread r := by
      split
      · exact (State.unread_grab ..).trans (s.unread_claim ..)
      · exact (State.unread_modRoom (Room.unread_pend _ _)).trans (s.unread_claim ..)
    exact (ih _).trans hone

theorem State.eq_of_unread {s t : State} {r : RoomId} (h : t.unread r = s.unread r) :
    t = (s.setRoom r (t.room r)).withLogs t.flt t.smoke := by
  have hput (u : State) : ((u.unread r).setRoom r (t.room r)).withLogs t.flt t.smoke =
      (u.setRoom r (t.room r)).withLogs t.flt t.smoke := by
    rw [State.unread, State.setRoom_withLogs, State.withLogs_withLogs, State.setRoom_setRoom]
  calc t = (t.setRoom r (t.room r)).withLogs t.flt t.smoke := by rw [State.setRoom_room, State.withLogs_self]
    _ = _ := by rw [← hput t, h, hput s]

theorem State.room_unread (s : State) (r : RoomId) : (s.unread r).room r = (s.room r).unread :=
  State.room_setRoom s r (s.room r).unread

theorem Room.keeps_iff_unread {x y : Room} : x.keeps y ↔ x.unread.keeps y.unread := Iff.rfl

end Sys2Proof.Machine

/-! SUPPORT. Matrix commands that read the Pantry, and MM128, MMT, MM64P and MM64Q in their start gc (R205, R206, R210 to
R213, R227), and the obligation about stream commands. -/

namespace Sys2Proof.Machine

/-! ## A command that begins to read (R205, R206, R213) -/

/-- The Room in which a matrix command begins to read: the command has left its queue, `f` has taken its lane, and the run
`u` has the Room's next number. -/
def Room.reading (rm : Room) (s : State) (r : RoomId) (c : QCmd) (dur : Nat) (tr : Trace) (f : Mx → Mx) (u : Run) : Room :=
  { rm.started s r 3 c dur tr with
    mx := f rm.mx, runs := rm.runs ++ [{ u with id := rm.nextRun }], nextRun := rm.nextRun + 1 }

/-- What a command of the matrix queue that begins to read leaves of the Room `rm`: its lane makes `mx` of the matrix engine,
and it runs as `u` but for the lines it has read. -/
structure Room.BeganReading (x rm : Room) (mx : Mx) (u : Run) : Prop where
  queue : x.queue 3 = (rm.queue 3).drop 1
  mx : x.mx = mx
  keeps : x.keeps rm
  vec : x.vec = rm.vec
  out : x.out = rm.out
  run : ∃ v ∈ x.runs, v.id = rm.nextRun ∧ v.cmd = u.cmd ∧ v.start = u.start ∧ v.cls = u.cls ∧ v.e = u.e

theorem Room.BeganReading.of_unread {x rm : Room} {s : State} {r : RoomId} {c : QCmd} {dur : Nat} {tr : Trace}
    {f : Mx → Mx} {u : Run} (hf : (f rm.mx).act = rm.mx.act ∧ (f rm.mx).shd = rm.mx.shd)
    (h : x.unread = (rm.reading s r c dur tr f u).unread) : x.BeganReading rm (f rm.mx) u where
  queue := (congrArg (Room.queue · 3) h).trans (rm.queue_setQueue _ (by decide))
  mx := (congrArg Room.mx h :)
  keeps := by
    rw [Room.keeps_iff_unread, h]
    exact ⟨rfl, rfl, rfl, rfl, rfl, rfl, rfl, hf.1, hf.2, rfl, rfl, rfl, rfl, rfl⟩
  vec := (congrArg Room.vec h :)
  out := (congrArg Room.out h :)
  run := by
    have hruns : x.runs.map Run.unread = (rm.runs ++ [{ u with id := rm.nextRun }]).map Run.unread := congrArg Room.runs h
    have hmem : Run.unread { u with id := rm.nextRun } ∈ x.runs.map Run.unread := by simp [hruns]
    obtain ⟨v, hv, hvu⟩ := List.mem_map.1 hmem
    exact ⟨v, hv, (congrArg Run.id hvu :), (congrArg Run.cmd hvu :), (congrArg Run.start hvu :), (congrArg Run.cls hvu :),
      (congrArg Run.e hvu :)⟩

/-- A Room with more effects still to come. -/
def Room.addPends (rm : Room) (ps : List Pend) : Room := { rm with pend := rm.pend ++ ps }

theorem Room.BeganReading.addPends {x rm : Room} {mx : Mx} {u : Run} (h : x.BeganReading rm mx u) (ps : List Pend) :
    (x.addPends ps).BeganReading rm mx u :=
  ⟨h.queue, h.mx, h.keeps, h.vec, h.out, h.run⟩

theorem State.addPend_withLogs (s : State) (r : RoomId) (x : Room) (fl : Faults) (sm : Smoke) (delay : Nat) (c : QCmd) (e : Eff) :
    ((s.setRoom r x).withLogs fl sm).addPend r (s.cyc r + delay) c.word e =
      (s.setRoom r (x.addPends [s.pendOf r c delay e])).withLogs fl sm := by
  rw [State.addPend, State.modRoom_def, State.setRoom_withLogs, State.setRoom_setRoom, State.room_withLogs, State.room_setRoom]
  rfl

/-- A matrix command leaves its queue, `f` takes its lane, and it runs as `u`: the run's number, and the package. -/
def State.startRun (s : State) (r : RoomId) (c : QCmd) (dur lane : Nat) (f : Mx → Mx) (u : Run) : Nat × State :=
  ((s.begin r 3 c dur lane).modRoom r fun rm => { rm with mx := f rm.mx }).addRun r u

theorem State.startRun_eq (s : State) (r : RoomId) (c : QCmd) (dur lane : Nat) (f : Mx → Mx) (u : Run) :
    ∃ tr, s.startRun r c dur lane f u = ((s.room r).nextRun, s.setRoom r ((s.room r).reading s r c dur tr f u)) := by
  obtain ⟨tr, hbegin⟩ := s.begin_eq_started r 3 c dur lane
  refine ⟨tr, ?_⟩
  rw [State.startRun, hbegin]
  simp only [State.addRun, State.modRoom_def, State.room_setRoom, State.setRoom_setRoom]
  rfl

/-- R205, R206: the reads of a matrix command that starts leave all of its Room but the queue, the lane and the run. -/
theorem State.reads_startRun {s : State} {r : RoomId} {c : QCmd} {f : Mx → Mx} (dur lane : Nat) (u : Run)
    (acc : List (Nat × Nat)) (hf : (f (s.room r).mx).act = (s.room r).mx.act ∧ (f (s.room r).mx).shd = (s.room r).mx.shd) :
    ∃ x fl sm, (s.startRun r c dur lane f u).1 = (s.room r).nextRun ∧
      (s.startRun r c dur lane f u).2.reads r c.word (s.startRun r c dur lane f u).1 acc = (s.setRoom r x).withLogs fl sm ∧
      x.BeganReading (s.room r) (f (s.room r).mx) u := by
  obtain ⟨tr, hstart⟩ := s.startRun_eq r c dur lane f u
  rw [hstart]
  have hunread := State.unread_reads (s.setRoom r ((s.room r).reading s r c dur tr f u)) r c.word (s.room r).nextRun acc
  refine ⟨_, _, _, rfl, (State.eq_of_unread hunread).trans (by rw [State.setRoom_setRoom]),
    .of_unread (s := s) (r := r) (c := c) (dur := dur) (tr := tr) hf ?_⟩
  rw [← State.room_unread, hunread, State.room_unread, State.room_setRoom]

theorem State.done_withLogs (s : State) (r : RoomId) (x : Room) (fl : Faults) (sm : Smoke) :
    s.done ((s.setRoom r x).withLogs fl sm) = .next ((s.setRoom r x).withLogs fl sm) := rfl

theorem Mx.takeStream_keeps (m : Mx) (cyc occ last : Nat) :
    (m.takeStream cyc occ last).act = m.act ∧ (m.takeStream cyc occ last).shd = m.shd := ⟨rfl, rfl⟩

theorem Mx.takeLoad_keeps (m : Mx) (cyc occ last : Nat) :
    (m.takeLoad cyc occ last).act = m.act ∧ (m.takeLoad cyc occ last).shd = m.shd := ⟨rfl, rfl⟩

/-- The tensor that a matrix command reads. -/
abbrev State.operand (s : State) (r : RoomId) (w : BitVec 128) : Tensor := tensorOf ((s.room r).descOf (field w 32 11))

/-- The bits of its elements; 8 where the format is undefined (R216). -/
abbrev State.operandBits (s : State) (r : RoomId) (w : BitVec 128) : Nat :=
  ((fmtOf s.tabs.ptab (s.operand r w).fmt).map (·.elem.bits)).getD 8

/-! ## Stream commands (R205, R210 to R213, R227) -/

/-- The moving rows of a stream command (R209). -/
abbrev State.mmRows (s : State) (r : RoomId) (w : BitVec 128) : Nat := min (field w 56 7 + 1) (s.operand r w).yext

/-- The reads of a stream command, by gc and line (R213, R240). -/
def State.mmReads (s : State) (r : RoomId) (w : BitVec 128) (cls : OpClass) : List (Nat × Nat) :=
  match fmtOf s.tabs.ptab (s.operand r w).fmt with
  | none => []
  | some f => ((mmLines (opcodeOf w) (s.mmRows r w) cls f.elem.bits (s.operand r w)).map fun g =>
      (gcLines g.2.1 g.2.2).map fun n => (s.cyc r + g.1, n)).flatten

/-- The run of a stream command. -/
def State.mmRunOf (s : State) (r : RoomId) (c : QCmd) (tm : MmTime) : Run :=
  { (default : Run) with cmd := c, start := s.cyc r, descs := [(s.room r).descOf (field c.word 32 11)], cls := tm.cls, e := tm.e }

theorem mmRun_eq {s : State} {r : RoomId} {c : QCmd} {tm : MmTime}
    (h : s.ReadsReady r c.word (s.mmReads r c.word tm.cls)) :
    mmRun r c tm s =
      let x := s.startRun r c (tm.d + tm.e + (if bit c.word 48 then 17 else 14)) 0
        (·.takeStream (s.cyc r) tm.e (s.cyc r + tm.d + tm.e)) (s.mmRunOf r c tm)
      (x.2.reads r c.word x.1 (s.mmReads r c.word tm.cls)).addPend r (s.cyc r + tm.d) c.word (.mmEntry x.1 c) := by
  unfold mmRun
  simp only
  split
  · rename_i z hz
    exact absurd (h.symm.trans hz) (by simp)
  · rfl

/-- R205, R211, R213: a stream command whose first lines are ready. -/
theorem mmRun_starts {s : State} {r : RoomId} {c : QCmd} {tm : MmTime}
    (h : s.ReadsReady r c.word (s.mmReads r c.word tm.cls)) :
    ∃ x fl sm, mmRun r c tm s = (s.setRoom r x).withLogs fl sm ∧
      x.BeganReading (s.room r) ((s.room r).mx.takeStream (s.cyc r) tm.e (s.cyc r + tm.d + tm.e)) (s.mmRunOf r c tm) ∧
      s.pendOf r c tm.d (.mmEntry (s.room r).nextRun c) ∈ x.pend := by
  rw [mmRun_eq h]
  obtain ⟨x, fl, sm, hid, hreads, hx⟩ := State.reads_startRun (c := c)
    (f := (·.takeStream (s.cyc r) tm.e (s.cyc r + tm.d + tm.e))) (tm.d + tm.e + (if bit c.word 48 then 17 else 14)) 0
    (s.mmRunOf r c tm) (s.mmReads r c.word tm.cls) ((s.room r).mx.takeStream_keeps ..)
  refine ⟨x.addPends [s.pendOf r c tm.d (.mmEntry (s.room r).nextRun c)], fl, sm, ?_, hx.addPends _,
    List.mem_append_right _ (List.mem_singleton_self _)⟩
  simp only
  rw [hreads, State.addPend_withLogs, hid]

/-- The element and scale bytes of the rows that a stream command reads lie in the Pantry (R209, R337). -/
def State.MmInPantry (s : State) (r : RoomId) (w : BitVec 128) (cls : OpClass) : Prop :=
  ∀ y, y < s.mmRows r w → ∀ p ∈ mmParts (opcodeOf w) cls (s.operand r w),
    (rowRange (s.operandBits r w) (s.operand r w) p.1 p.2 y).1 + (rowRange (s.operandBits r w) (s.operand r w) p.1 p.2 y).2 ≤
      panSize ∧ ∀ o ∈ rowScaleOffs (s.operand r w) 0 p.1 p.2 y, o < panSize

section
variable {s : State} {r : RoomId} {w : BitVec 128} {cls : OpClass}

theorem State.MmInPantry.rows (h : s.MmInPantry r w cls) (idx : Nat) :
    rangeErr idx ((List.range (s.mmRows r w)).map fun y => (mmParts (opcodeOf w) cls (s.operand r w)).map fun p =>
      rowRange (s.operandBits r w) (s.operand r w) p.1 p.2 y).flatten = none := by
  refine rangeErr_none_of_le idx fun q hq => ?_
  obtain ⟨_, hrow, hq⟩ := List.mem_flatten.1 hq
  obtain ⟨y, hy, rfl⟩ := List.mem_map.1 hrow
  obtain ⟨p, hp, rfl⟩ := List.mem_map.1 hq
  exact (h y (List.mem_range.1 hy) p hp).1

theorem State.MmInPantry.scales (h : s.MmInPantry r w cls) (idx : Nat) :
    rangeErr idx ((List.range (s.mmRows r w)).map fun y => ((mmParts (opcodeOf w) cls (s.operand r w)).map fun p =>
      (rowScaleOffs (s.operand r w) 0 p.1 p.2 y).map fun o => (o, 1)).flatten).flatten = none := by
  refine rangeErr_none_of_le idx fun q hq => ?_
  obtain ⟨_, hrow, hq⟩ := List.mem_flatten.1 hq
  obtain ⟨y, hy, rfl⟩ := List.mem_map.1 hrow
  obtain ⟨_, hpart, hq⟩ := List.mem_flatten.1 hq
  obtain ⟨p, hp, rfl⟩ := List.mem_map.1 hpart
  obtain ⟨o, ho, rfl⟩ := List.mem_map.1 hq
  exact (h y (List.mem_range.1 hy) p hp).2 o ho

/-- R426: the lines that a stream command reads in its start gc are ready. -/
theorem State.readsReady_mmReads (h : ∀ g ∈ mmLines (opcodeOf w) (s.mmRows r w) cls (s.operandBits r w) (s.operand r w),
    g.1 = 0 → s.linesReady r (gcLines g.2.1 g.2.2)) : s.ReadsReady r w (s.mmReads r w cls) := by
  refine State.readsReady_of_linesReady _ fun a ha hnow => ?_
  unfold State.mmReads at ha
  split at ha
  · simp at ha
  · rename_i f hf
    obtain ⟨_, hl, ha⟩ := List.mem_flatten.1 ha
    obtain ⟨g, hg, rfl⟩ := List.mem_map.1 hl
    obtain ⟨n, hn, rfl⟩ := List.mem_map.1 ha
    rw [State.operandBits, hf] at h
    exact (h g hg (by simpa using hnow)).mono (by simpa using hn)

end

/-- R205, R210: a stream command without a descriptor fault begins to read where its lane is free. -/
theorem mmStream_eq {s : State} {r : RoomId} {c : QCmd} {op : Nat} (hdue : UnitDue s r 3 op c)
    (hlane : (s.room r).mx.streamReady (s.cyc r) (mmTime (s.room r) s.tabs c.word).d = true)
    (hdesc : (s.room r).descErr s.tabs (field c.word 32 11) 1 c.word = none)
    (hpan : s.MmInPantry r c.word (mmTime (s.room r) s.tabs c.word).cls) :
    mmStream op r c s = mmRun r c (mmTime (s.room r) s.tabs c.word) s := by
  have hop := hdue.opcode
  subst hop
  simp [mmStream, hdue.atHead, hlane, hdue.pred, firstErr, hdesc, hpan.rows, hpan.scales]

theorem exec_stream {op : Nat} {i : RoomId → QCmd → Instr}
    (h : (op, i) ∈ [(4, Instr.mm128), (5, Instr.mmt), (6, Instr.mm64p), (7, Instr.mm64q)])
    {s : State} {r : RoomId} {c : QCmd} (hop : opcodeOf c.word = op) : exec (i r c) s = s.done (mmStream op r c s) := by
  simp only [List.mem_cons, Prod.mk.injEq, List.not_mem_nil, or_false] at h
  obtain ⟨rfl, rfl⟩ | ⟨rfl, rfl⟩ | ⟨rfl, rfl⟩ | ⟨rfl, rfl⟩ := h
  · have hexec : exec (.mm128 r c) s = s.done (if opcodeOf c.word = 4 then mmStream 4 r c s else mmReserved r c s) := rfl
    rw [hexec, if_pos hop]
  · rfl
  · rfl
  · rfl

/-- Settles O11: a stream command without a descriptor fault begins to read, and what reads change is none of what is stated. -/
theorem matrixStreamsStart : Obligations.MatrixStreamsStart := by
  intro s r c op i hi hdue rm tm t bits m hfree hlast hdesc hpan hready
  have hop := hdue.opcode
  subst hop
  obtain ⟨x, fl, sm, hrun, hx, hpend⟩ := mmRun_starts (tm := tm) (State.readsReady_mmReads (r := r) (w := c.word) hready)
  refine ⟨x, fl, sm, ?_, hx.queue, hx.mx, hx.keeps, hx.vec, hx.out, hpend, hx.run⟩
  rw [exec_stream hi rfl, mmStream_eq hdue (by simp [Mx.streamReady, hfree, hlast, rm, tm]) hdesc hpan, hrun]
  exact State.done_withLogs ..

end Sys2Proof.Machine

/-! SUPPORT. MLOAD in its start gc (R206, R213, R220), and the obligation about it. -/

namespace Sys2Proof.Machine

/-! ## The region of a load (R217) -/

theorem regionOf_rows {n : Nat} (hn : n < 8) (h : n ≠ 7) :
    (if (regionOf n).2.2.2.1 = 128 then 128 else 64) = if n = 0 then 128 else 64 := by
  revert n
  decide

/-- What an MLOAD without a fault asks of its descriptor, its region and its format (R217, R238, R360). -/
theorem fields_of_mloadErr {rm : Room} {tabs : Tables} {c : BitVec 128} (h : mloadErr rm tabs c = none) :
    field c 43 3 ≠ 7 ∧ ∃ f, fmtOf tabs.ptab (tensorOf (rm.descOf (field c 32 11))).fmt = some f := by
  unfold mloadErr at h
  simp only [firstErr_eq_none_iff, List.forall_mem_cons] at h
  obtain ⟨-, -, -, hfmt, hfield, -⟩ := h
  refine ⟨fun h7 => ?_, fmtOf_of_fmtErr hfmt⟩
  simp [h7] at hfield

/-! ## The reads of a load (R213, R240) -/

/-- The element type in which a load reads. -/
def State.loadElem (s : State) (r : RoomId) (w : BitVec 128) : Elem :=
  ((fmtOf s.tabs.ptab (s.operand r w).fmt).map (·.elem)).getD (.flt fp32)

theorem State.bits_loadElem {s : State} {r : RoomId} {w : BitVec 128} {f : Fmt}
    (h : fmtOf s.tabs.ptab (s.operand r w).fmt = some f) : (s.loadElem r w).bits = s.operandBits r w := by
  simp [State.loadElem, State.operandBits, h]

/-- The element lines and the scale lines of row `y` of a load (R218). -/
def State.loadLines (s : State) (r : RoomId) (w : BitVec 128) (y : Nat) : List Nat × List Nat :=
  rowLines (s.loadElem r w).bits (s.operand r w) (if bit w 46 then 2 else 1) 0 (s.operand r w).xext y

/-- The reads of a load, by gc and line: one row in each gc. -/
def State.loadReads (s : State) (r : RoomId) (w : BitVec 128) : List (Nat × Nat) :=
  ((List.range (s.operand r w).yext).map fun y =>
    (gcLines (s.loadLines r w y).1 (s.loadLines r w y).2).map fun n => (s.cyc r + y, n)).flatten

/-- The run of a load. -/
def State.loadRunOf (s : State) (r : RoomId) (c : QCmd) : Run :=
  { (default : Run) with cmd := c, start := s.cyc r, descs := [(s.room r).descOf (field c.word 32 11)] }

/-- R426: the lines of its first row let a load start. -/
theorem State.readsReady_loadReads {s : State} {r : RoomId} {w : BitVec 128}
    (h : s.linesReady r ((s.loadLines r w 0).1 ++ (s.loadLines r w 0).2)) : s.ReadsReady r w (s.loadReads r w) := by
  refine State.readsReady_of_linesReady _ fun a ha hnow => ?_
  obtain ⟨_, hl, ha⟩ := List.mem_flatten.1 ha
  obtain ⟨y, hy, rfl⟩ := List.mem_map.1 hl
  obtain ⟨n, hn, rfl⟩ := List.mem_map.1 ha
  obtain rfl : y = 0 := by simpa using hnow
  exact h.mono (by simpa using mem_append_of_mem_gcLines hn)

/-! ## The start of a load -/

/-- The buffers that a load makes LOADING (R220). -/
def loadBufs (t : Tensor) (w : BitVec 128) : List (Nat × MxBuf) :=
  let g := regionOf (field w 43 3)
  g.1.map fun q => (q, quadTile t (bit w 46) q g.2.1 g.2.2.1 [] [])

theorem loadBufs_quads (t : Tensor) (w : BitVec 128) : (loadBufs t w).map (·.1) = (regionOf (field w 43 3)).1 := by
  simp [loadBufs, Function.comp_def]

/-- R206, R213, R220: a load of `occ` gc whose first lines are ready. -/
theorem mloadRun_starts {s : State} {r : RoomId} {c : QCmd} (hpred : c.pred = true)
    (h : s.ReadsReady r c.word (s.loadReads r c.word)) :
    let t := s.operand r c.word
    let d := decLat s.tabs t.fmt
    let occ := if (regionOf (field c.word 43 3)).2.2.2.1 = 128 then 128 else 64
    ∃ x fl sm, mloadRun r c.word s = (s.setRoom r x).withLogs fl sm ∧
      x.BeganReading (s.room r) ((s.room r).mx.takeLoad (s.cyc r) occ (s.cyc r + d + occ)) (s.loadRunOf r c) ∧
      s.pendOf r c d (.mxBegin (loadBufs t c.word) (s.cyc r + d + occ)) ∈ x.pend ∧
      s.pendOf r c (max (t.yext - 1) d) (.mxFill (s.room r).nextRun) ∈ x.pend := by
  intro t d occ
  have hcmd : (⟨c.word, true⟩ : QCmd) = c := by rw [← hpred]
  have hrun : mloadRun r c.word s =
      let x := s.startRun r c (d + occ) 1 (·.takeLoad (s.cyc r) occ (s.cyc r + d + occ)) (s.loadRunOf r c)
      ((x.2.reads r c.word x.1 (s.loadReads r c.word)).addPend r (s.cyc r + d) c.word
        (.mxBegin (loadBufs t c.word) (s.cyc r + d + occ))).addPend r (s.cyc r + max (t.yext - 1) d) c.word (.mxFill x.1) := by
    unfold mloadRun
    simp only [hcmd]
    split
    · rename_i z hz
      exact absurd (h.symm.trans hz) (by simp)
    · rfl
  obtain ⟨x, fl, sm, hid, hreads, hx⟩ := State.reads_startRun (c := c) (f := (·.takeLoad (s.cyc r) occ (s.cyc r + d + occ)))
    (d + occ) 1 (s.loadRunOf r c) (s.loadReads r c.word) ((s.room r).mx.takeLoad_keeps ..)
  refine ⟨(x.addPends [s.pendOf r c d (.mxBegin (loadBufs t c.word) (s.cyc r + d + occ))]).addPends
      [s.pendOf r c (max (t.yext - 1) d) (.mxFill (s.room r).nextRun)], fl, sm, ?_, (hx.addPends _).addPends _,
    by simp [Room.addPends], by simp [Room.addPends]⟩
  rw [hrun]
  simp only
  rw [hreads, State.addPend_withLogs, State.addPend_withLogs, hid]

/-- R206, R210: an MLOAD without a fault begins to read where its lane is free. -/
theorem mload_eq {s : State} {r : RoomId} {c : QCmd} (hdue : UnitDue s r 3 1 c)
    (hlane : (s.room r).mx.loadReady (s.cyc r) (decLat s.tabs (s.operand r c.word).fmt) = true)
    (hok : mloadErr (s.room r) s.tabs c.word = none) : mload r c s = mloadRun r c.word s := by
  unfold mload
  simp [hdue.atHead, hdue.opcode, hlane, hdue.pred, hok]

/-- Settles O12: an MLOAD without a fault begins to read, and the effects of its tile follow the decoding of its first row. -/
theorem tileLoadStarts : Obligations.TileLoadStarts := by
  intro s r c hdue rm t d g occ bits hfree hlast hok hready
  obtain ⟨hreg, f, hf⟩ := fields_of_mloadErr hok
  have hocc := regionOf_rows (field_lt c.word 43 3) hreg
  obtain ⟨x, fl, sm, hrun, hx, hbegin, hfill⟩ := mloadRun_starts (s := s) (r := r) hdue.pred
    (State.readsReady_loadReads (by rw [State.loadLines, State.bits_loadElem hf]; exact hready))
  rw [hocc] at hx hbegin
  refine ⟨x, fl, sm, ?_, hx.queue, hx.mx, hx.keeps, hx.vec, ⟨_, hbegin, loadBufs_quads ..⟩, hfill⟩
  have hexec : exec (.mload r c) s = s.done (mload r c s) := rfl
  rw [hexec, mload_eq hdue (by simp [Mx.loadReady, hfree, hlast, rm, d, t]) hok, hrun]
  exact State.done_withLogs ..

end Sys2Proof.Machine

/-! SUPPORT. Tiles that become READY, exchanges of buffers and slots that are released (R220, R224, R226, R233), and the
obligation about them. -/

namespace Sys2Proof.Machine

/-! ## Loads that are complete (R220) -/

/-- A complete load makes the LOADING buffers of its quadrants READY. -/
def MxLoad.mark (shd : Vector MxBuf 4) (l : MxLoad) : Vector MxBuf 4 :=
  shd.mapFinIdx fun i b _ => if bit l.quads i && b.st == 1#2 then { b with st := 2 } else b

theorem MxLoad.getElem_mark (shd : Vector MxBuf 4) (l : MxLoad) (q : Fin 4) :
    (l.mark shd)[q] = if shd[q].st = 1 ∧ bit l.quads q.val = true then { shd[q] with st := 2 } else shd[q] := by
  simp [MxLoad.mark, and_comm]

theorem MxLoad.getElem_foldl_mark (ls : List MxLoad) (shd : Vector MxBuf 4) (q : Fin 4) :
    (ls.foldl (fun v l => MxLoad.mark v l) shd)[q] =
      if shd[q].st = 1 ∧ ∃ l ∈ ls, bit l.quads q.val = true then { shd[q] with st := 2 } else shd[q] := by
  induction ls generalizing shd with
  | nil => simp
  | cons l ls ih =>
    rw [List.foldl_cons, ih, MxLoad.getElem_mark]
    generalize shd[q] = b
    by_cases hload : b.st = 1#2
    · by_cases hquad : bit l.quads q.val = true <;> simp [hload, hquad]
    · simp [hload]

theorem Mx.settle_shd (m : Mx) (cyc : Nat) (q : Fin 4) : (m.settle cyc).shd[q] =
    if m.shd[q].st = 1 ∧ ∃ l ∈ m.loads, l.due ≤ cyc ∧ bit l.quads q.val = true
      then { m.shd[q] with st := 2 } else m.shd[q] := by
  have hfold : (m.settle cyc).shd =
    (m.loads.filter fun l => decide (l.due ≤ cyc)).foldl (fun v l => MxLoad.mark v l) m.shd := rfl
  rw [hfold, MxLoad.getElem_foldl_mark]
  simp [and_assoc]

/-! ## Exchanges of buffers (R224, R226) -/

theorem Mx.swap_shd (m : Mx) (q : BitVec 4) (i : Fin 4) : (m.swap q).shd[i] = if bit q i then m.act[i] else m.shd[i] := by
  simp [Mx.swap]

theorem Mx.swapRefused_iff (m : Mx) (q : BitVec 4) :
    m.swapRefused q = true ↔ ∃ i : Fin 4, bit q i.val = true ∧ m.shd[i].st = 1 := by
  simp [Mx.swapRefused, Fin.exists_fin_succ]

/-- The matrix engine when an MSWAP takes the stream lane for its one gc. -/
def Mx.atSwap (m : Mx) (cyc : Nat) : Mx := (m.settle cyc).takeStream cyc 1 (cyc + 1)

/-- The package when an MSWAP has started, before it exchanges anything. -/
def State.swapStart (s : State) (r : RoomId) (c : QCmd) (tr : Trace) : State :=
  s.setRoom r { (s.room r).started s r 3 c 1 tr with mx := (s.room r).mx.atSwap (s.cyc r) }

theorem State.room_swapStart (s : State) (r : RoomId) (c : QCmd) (tr : Trace) :
    (s.swapStart r c tr).room r = { (s.room r).started s r 3 c 1 tr with mx := (s.room r).mx.atSwap (s.cyc r) } :=
  State.room_setRoom ..

theorem mswap_eq {s : State} {r : RoomId} {c : QCmd} (hdue : UnitDue s r 3 2 c) (hfree : (s.room r).mx.strFree ≤ s.cyc r)
    (hlast : (s.room r).mx.strLast ≤ s.cyc r) (hfield : field c.word 36 92 = 0) :
    ∃ tr, mswap r c s = if ((s.room r).mx.atSwap (s.cyc r)).swapRefused (c.word.extractLsb' 32 4)
      then (s.swapStart r c tr).mmFault r c.word (fcMmNotReady, [((s.room r).mx.atSwap (s.cyc r)).tileWord])
      else (s.swapStart r c tr).modRoom r fun rm => { rm with mx := rm.mx.swap (c.word.extractLsb' 32 4) } := by
  obtain ⟨tr, hbegin⟩ := s.begin_eq_started r 3 c 1 0
  refine ⟨tr, ?_⟩
  have hstart : ((s.begin r 3 c 1 0).modRoom r fun rm =>
      { rm with mx := (rm.mx.settle (s.cyc r)).takeStream (s.cyc r) 1 (s.cyc r + 1) }) = s.swapStart r c tr := by
    rw [hbegin, State.modRoom_def, State.setRoom_setRoom, State.room_setRoom]
    rfl
  unfold mswap
  simp only [hstart, hdue.atHead, hdue.opcode, hdue.pred, hfield, State.room_swapStart]
  simp [Mx.streamReady, hfree, hlast]

/-- R238, R245: a matrix fault is reported with its command's tag, and counted. -/
theorem State.mmFault_eq (s : State) (r : RoomId) (w : BitVec 128) (e : Nat × List (BitVec 64)) :
    ∃ rp, (s.mmFault r w e).flt.queue = s.flt.queue ++ [rp] ∧ rp.code = BitVec.ofNat 16 e.1 ∧ rp.tag = tagOf w ∧
      ((s.mmFault r w e).room r).mx = { (s.room r).mx with skipFault := satAdd (s.room r).mx.skipFault 1 } := by
  obtain ⟨rp, tr, h, hcode, -, -, htag, -⟩ := State.cmdFault_eq
    (s.modRoom r fun rm => { rm with mx := { rm.mx with skipFault := satAdd rm.mx.skipFault 1 } }) r w e.1 e.2 0
  refine ⟨rp, ?_, hcode, htag, ?_⟩
  · rw [State.mmFault, h]
    rfl
  · rw [State.mmFault, h]
    exact (congrArg Room.mx (State.room_setRoom ..)).trans (congrArg Room.mx (State.room_modRoom ..))

/-! ## Slots that are released (R233) -/

/-- A slot that has been released to the vector engine. -/
def Hatch.toVector (h : Hatch) (n : Nat) : Hatch := { h.setSlot n 3 with rel := h.rel.filter fun p => p.1 != n }

theorem Hatch.slot_toVector (h : Hatch) {m n : Nat} (hm : m < 4) (hn : n < 4) :
    (h.toVector m).slot n = if n = m then 3 else h.slot n := h.slot_setSlot hm hn (by decide)

theorem hatchSlotToVector_eq {s : State} {r : RoomId} {slot : Fin 4} (hslot : (s.room r).hatch.slot slot.val = 2)
    (hdue : ∃ e ∈ (s.room r).hatch.rel, e.1 = slot.val ∧ e.2 ≤ s.cyc r) :
    hatchSlotToVector r slot s = s.setRoom r { s.room r with hatch := (s.room r).hatch.toVector slot.val } := by
  have hany : ((s.room r).hatch.rel.any fun p => p.1 == slot.val && decide (p.2 ≤ s.cyc r)) = true := by
    simpa using hdue
  simp only [hatchSlotToVector, hany, hslot]
  rfl

/-! ## The obligation -/

/-- Settles O13: by what a buffer is after the loads that are complete, after an exchange, and a slot after its release. -/
theorem tilesSwapAndSlotsRelease : Obligations.TilesSwapAndSlotsRelease := by
  intro s r
  refine ⟨⟨((s.room r).mx.settle (s.cyc r)).shd, rfl, fun q => Mx.settle_shd ..⟩, ?_, ?_⟩
  · intro c hdue hfree hlast hfield m
    obtain ⟨tr, hswap⟩ := mswap_eq hdue hfree hlast hfield
    have hexec : exec (.mswap r c) s = s.done (mswap r c s) := rfl
    have hquad (q : Fin 4) : bit (c.word.extractLsb' 32 4) q.val = bit c.word (32 + q.val) := bit_extractLsb' _ q.isLt
    have hrefused := Mx.swapRefused_iff ((s.room r).mx.atSwap (s.cyc r)) (c.word.extractLsb' 32 4)
    simp only [hquad] at hrefused
    refine ⟨fun hready => ?_, fun hloading => ?_⟩
    · rw [if_neg (fun h => by
        obtain ⟨q, hq, hst⟩ := hrefused.1 h
        exact hready q hq hst)] at hswap
      refine ⟨tr, _, _, ?_, fun q => ⟨(Mx.swap_act m (c.word.extractLsb' 32 4) q).trans (by rw [hquad]),
        (Mx.swap_shd m (c.word.extractLsb' 32 4) q).trans (by rw [hquad])⟩⟩
      rw [hexec, hswap, State.modRoom_def, State.room_swapStart, State.swapStart, State.setRoom_setRoom]
      rfl
    · rw [if_pos (hrefused.2 hloading)] at hswap
      obtain ⟨rp, hqueue, hcode, htag, hmx⟩ := State.mmFault_eq (s.swapStart r c tr) r c.word
        (fcMmNotReady, [((s.room r).mx.atSwap (s.cyc r)).tileWord])
      rw [State.room_swapStart] at hmx
      rw [hexec, hswap]
      exact ⟨_, rfl, (congrArg Mx.act hmx :), (congrArg Mx.shd hmx :), (congrArg Mx.skipFault hmx :), rp, hqueue, hcode, htag⟩
  · intro slot hslot hdue
    have hexec : exec (.hatchSlotToVector r slot) s = s.done (hatchSlotToVector r slot s) := rfl
    refine ⟨(s.room r).hatch.toVector slot.val, by rw [hexec, hatchSlotToVector_eq hslot hdue, State.done_setRoom], rfl, ?_, ?_⟩
    · rw [Hatch.slot_toVector _ slot.isLt slot.isLt, if_pos rfl]
    · intro q hq
      rw [Hatch.slot_toVector _ slot.isLt q.isLt, if_neg (fun h => hq (Fin.ext h))]

end Sys2Proof.Machine

/-! SUPPORT. Changes of the Cellars alone: refresh windows, refresh levels and scrubbing (R465, R476 to R480, R484, R485). -/

namespace Sys2Proof.Machine

/-! ## Changes of a Cellar and of a stack -/

/-- The package with other Cellars. -/
def State.withCellars (s : State) (v : Vector Cellar 4) : State := { s with mem := { s.mem with cellars := v } }

@[simp] theorem State.withCellars_withCellars (s : State) (v w : Vector Cellar 4) :
    (s.withCellars v).withCellars w = s.withCellars w := rfl

theorem State.modCellar_eq (s : State) (c : CellarId) (f : Cellar → Cellar) :
    s.modCellar c.val f = s.withCellars (s.mem.cellars.set c.val (f s.mem.cellars[c])) := dif_pos c.isLt

/-- A change of one Cellar: the Cellars alone change, and of them that one. -/
theorem State.modCellar_spec (s : State) (c : CellarId) (f : Cellar → Cellar) :
    ∃ v, s.modCellar c.val f = s.withCellars v ∧ v[c] = f s.mem.cellars[c] ∧
      ∀ d : CellarId, d ≠ c → v[d] = s.mem.cellars[d] := by
  refine ⟨_, s.modCellar_eq c f, by simp, fun d hd => ?_⟩
  have hne : c.val ≠ d.val := fun h => hd (Fin.ext h.symm)
  simp [hne]

/-- The Cellar that a stack stands in. -/
def cellarOf (st : StackId) : CellarId := ⟨st.val / 2, by omega⟩

theorem State.stack_eq (s : State) (st : StackId) : s.stack st.val = s.mem.cellars[cellarOf st].stk[st.val % 2] := by
  have hcel : st.val / 2 < 4 := (cellarOf st).isLt
  have hpos : st.val % 2 < 2 := Nat.mod_lt _ (by decide)
  simp [State.stack, cellarOf, hcel, hpos]

/-- A change of one stack: the Cellars alone change, and of their stacks that one. -/
theorem State.modStack_spec (s : State) (st : StackId) (f : Stack → Stack) :
    ∃ v, s.modStack st.val f = s.withCellars v ∧ (s.withCellars v).stack st.val = f (s.stack st.val) ∧
      ∀ n, n < 8 → n ≠ st.val → (s.withCellars v).stack n = s.stack n := by
  have hpos : st.val % 2 < 2 := Nat.mod_lt _ (by decide)
  refine ⟨_, s.modCellar_eq (cellarOf st) _, ?_, fun n hn hne => ?_⟩
  · simp [State.stack_eq, State.withCellars, hpos]
  · have hother := fun t : State => t.stack_eq ⟨n, hn⟩
    simp only [hother, State.withCellars]
    by_cases hcel : st.val / 2 = n / 2
    · have hpos' : ¬ st.val % 2 = n % 2 := by omega
      simp [cellarOf, hcel, hpos, hpos']
    · simp [cellarOf, hcel]

/-- A change of a Cellar that keeps its stacks keeps every stack of the package. -/
theorem State.modCellar_keeps_stacks (s : State) (c : CellarId) {f : Cellar → Cellar} (hf : ∀ k, (f k).stk = k.stk) :
    ∃ v, s.modCellar c.val f = s.withCellars v ∧ ∀ n, n < 8 → (s.withCellars v).stack n = s.stack n := by
  refine ⟨_, s.modCellar_eq c f, fun n hn => ?_⟩
  have hstack := fun t : State => t.stack_eq ⟨n, hn⟩
  simp only [hstack, State.withCellars]
  by_cases hcel : c.val = n / 2
  · simp [cellarOf, ← hcel, hf]
  · simp [cellarOf, hcel]

/-- A command that leaves the queue and the clocks alone ends in what it makes of the package. -/
theorem exec_eq_next {i : Instr} {s t u : State} (hexec : exec i s = s.done t) (ht : t = u) (hu : s.done u = .next u) :
    exec i s = .next u := by
  rw [hexec, ht, hu]

/-! ## Refresh windows (R475 to R480) -/

/-- A stack in which a fixed window opens at `rc`. -/
def Stack.openFixed (k : Stack) (rc : Nat) : Stack := { k with winEnd := rc + 30, lastWin := rc, fixedAt := rc }

/-- One stack's part in a fixed window. -/
def State.openFixed (s : State) (n : Nat) : State :=
  if bit s.thr.pwr.cellar (n / 2) then s.modStack n (·.openFixed s.rc) else s

theorem fixedRefreshWindow_eq {s : State} (h : s.fixedDue = true) :
    fixedRefreshWindow s = (List.range 8).foldl State.openFixed s := by
  rw [fixedRefreshWindow, h]
  rfl

theorem State.openFixed_spec (s : State) (st : StackId) : ∃ v, s.openFixed st.val = s.withCellars v ∧
    (s.withCellars v).stack st.val =
      (if bit s.thr.pwr.cellar (st.val / 2) then (s.stack st.val).openFixed s.rc else s.stack st.val) ∧
    ∀ n, n < 8 → n ≠ st.val → (s.withCellars v).stack n = s.stack n := by
  unfold State.openFixed
  split
  · exact s.modStack_spec st _
  · exact ⟨s.mem.cellars, rfl, rfl, fun _ _ _ => rfl⟩

/-- After the parts of the first `m` stacks those of them that are powered have the window, and the others are as they
were. -/
theorem State.foldl_openFixed (s : State) {m : Nat} (hm : m ≤ 8) :
    ∃ v, (List.range m).foldl State.openFixed s = s.withCellars v ∧ ∀ n, n < 8 → (s.withCellars v).stack n =
      if n < m ∧ bit s.thr.pwr.cellar (n / 2) = true then (s.stack n).openFixed s.rc else s.stack n := by
  induction m with
  | zero => exact ⟨s.mem.cellars, rfl, fun n _ => by simp [State.withCellars]⟩
  | succ m ih =>
    obtain ⟨v, hv, hstack⟩ := ih (by omega)
    obtain ⟨w, hw, hself, hother⟩ := (s.withCellars v).openFixed_spec ⟨m, hm⟩
    refine ⟨w, ?_, fun n hn => ?_⟩
    · rw [List.range_succ, List.foldl_append, hv, List.foldl_cons, List.foldl_nil, hw, State.withCellars_withCellars]
    · rw [State.withCellars_withCellars] at hself hother
      by_cases hlast : n = m
      · subst hlast
        rw [hself, hstack n hn]
        simp [State.withCellars]
      · have hlt : n < m + 1 ↔ n < m := by omega
        simp only [hother n hn hlast, hstack n hn, hlt]

theorem fixedWindow_opens {s : State} (hdue : s.fixedDue = true) :
    ∃ t, exec .fixedRefreshWindow s = .next t ∧ t.rooms = s.rooms ∧ t.mem.hbm = s.mem.hbm ∧
      ∀ n, n < 8 → t.stack n = if bit s.thr.pwr.cellar (n / 2) then (s.stack n).openFixed s.rc else s.stack n := by
  obtain ⟨v, hv, hstack⟩ := s.foldl_openFixed (m := 8) (Nat.le_refl 8)
  refine ⟨s.withCellars v, exec_eq_next rfl ((fixedRefreshWindow_eq hdue).trans hv) rfl, rfl, rfl, fun n hn => ?_⟩
  simpa only [hn, true_and] using hstack n hn

/-- A stack in which an extra window opens at `rc`. -/
def Stack.openExtra (k : Stack) (rc : Nat) : Stack :=
  { k with winEnd := rc + 30, extraEnd := rc + 30, lastWin := rc, queue := k.queue.map fun q => { q with refresh := true } }

theorem extraRefreshWindow_spec {s : State} {st : StackId} (hup : s.stackUp st = true) (hdue : s.extraDue st = true) :
    ∃ v, extraRefreshWindow st s = s.withCellars v ∧ (s.withCellars v).stack st.val = (s.stack st.val).openExtra s.rc := by
  obtain ⟨v, hv, hself, -⟩ := s.modStack_spec st (·.openExtra s.rc)
  obtain ⟨w, hw, hkeep⟩ := (s.withCellars v).modCellar_keeps_stacks (cellarOf st)
    (f := fun c => { c with extraWin := satAdd c.extraWin 1 }) (fun _ => rfl)
  refine ⟨w, ?_, (hkeep st.val st.isLt).trans hself⟩
  rw [← State.withCellars_withCellars s v w, ← hw, ← hv]
  simp only [extraRefreshWindow, hup, hdue]
  rfl

/-! ## Temperatures and refresh levels (R465, R478, R479) -/

theorem stackTempRead_eq {s : State} {st : StackId} (temp : BitVec 12) (hup : s.stackUp st = true) :
    stackTempRead st temp s = s.modStack st.val fun k => { k with temp := temp } := by
  simp [stackTempRead, hup]

theorem tempOf_eq_toInt (t : BitVec 12) : tempOf t = t.toInt := by
  rw [BitVec.toInt_eq_toNat_cond, tempOf, signed]
  split <;> split <;> omega

/-- The level that an evaluation chooses at temperature `x` from the level in force. -/
def nextLevel (level : Nat) (x : Int) : Nat :=
  let top := if x ≥ levelAt 2 then 2 else if x ≥ levelAt 1 then 1 else 0
  if top < level && decide (x > levelAt level - 32) then level else top

theorem refreshLevelEval_eq {s : State} {st : StackId} (hup : s.stackUp st = true) :
    refreshLevelEval st s = s.modStack st.val fun k =>
      { k with level := nextLevel (s.stack st.val).level (s.stack st.val).temp.toInt } := by
  rw [← tempOf_eq_toInt]
  simp only [refreshLevelEval, hup]
  rfl

theorem nextLevel_zero (x : Int) : nextLevel 0 x = if 1520 ≤ x then 2 else if 1360 ≤ x then 1 else 0 := by
  simp [nextLevel, levelAt]

theorem nextLevel_one (x : Int) : nextLevel 1 x = if 1520 ≤ x then 2 else if 1328 < x then 1 else 0 := by
  simp only [nextLevel, levelAt]
  grind

theorem nextLevel_two (x : Int) : nextLevel 2 x = if 1488 < x then 2 else if 1360 ≤ x then 1 else 0 := by
  simp only [nextLevel, levelAt]
  grind

/-- R479: 85 and 95 degrees are 1360 and 1520 sixteenths; a level in force is left 32 sixteenths below its own. -/
theorem nextLevel_bounds {level : Nat} (h : level ≤ 2) (x : Int) :
    (95 * 16 ≤ x → nextLevel level x = 2) ∧
    (85 * 16 ≤ x → x < 95 * 16 → level ≤ 1 → nextLevel level x = 1) ∧
    (85 * 16 ≤ x → x ≤ 93 * 16 → nextLevel level x = 1) ∧
    (93 * 16 < x → level = 2 → nextLevel level x = 2) ∧
    (83 * 16 < x → x < 95 * 16 → level = 1 → nextLevel level x = 1) ∧
    (x ≤ 83 * 16 → nextLevel level x = 0) ∧
    (x < 85 * 16 → level = 0 → nextLevel level x = 0) := by
  obtain rfl | rfl | rfl : level = 0 ∨ level = 1 ∨ level = 2 := by omega
  · simp only [nextLevel_zero]; grind
  · simp only [nextLevel_one]; grind
  · simp only [nextLevel_two]; grind

theorem refreshLevel_follows {s : State} {st : StackId} (hup : s.stackUp st = true) :
    ∃ t, exec (.refreshLevelEval st) s = .next t ∧ t.rooms = s.rooms ∧
      (∀ n, n < 8 → n ≠ st.val → t.stack n = s.stack n) ∧
      (t.stack st.val).level = nextLevel (s.stack st.val).level (s.stack st.val).temp.toInt := by
  obtain ⟨v, hv, hself, hother⟩ := s.modStack_spec st fun k =>
    { k with level := nextLevel (s.stack st.val).level (s.stack st.val).temp.toInt }
  exact ⟨s.withCellars v, exec_eq_next rfl ((refreshLevelEval_eq hup).trans hv) rfl, rfl, hother,
    congrArg Stack.level hself⟩

/-! ## Scrubbing (R482 to R485) -/

/-- A read whose codewords hold no error counts and reports nothing. -/
theorem State.readCheck_clean (s : State) {m : Mem} {addr n : Nat} (src : BitVec 64)
    (h : ∀ k, addr / 64 ≤ k → k < cdiv (addr + n) 64 → sget m.hbmBad k = 0#1 ∧ sget m.hbmSbe k = 0#1) :
    s.readCheck m addr n src = (false, s) := by
  have hclean (p : BitVec 1 → BitVec 1 → Bool) (hp : p 0#1 0#1 = false) :
      ((List.range (cdiv (addr + n) 64 - addr / 64)).map (addr / 64 + ·)).filter
        (fun k => p (sget m.hbmSbe k) (sget m.hbmBad k)) = [] := by
    rw [List.filter_eq_nil_iff]
    intro k hk
    obtain ⟨i, hi, rfl⟩ := List.mem_map.1 hk
    obtain ⟨hbad, hsbe⟩ := h (addr / 64 + i) (by omega) (by have := List.mem_range.1 hi; omega)
    rw [hbad, hsbe, hp]
    decide
  have hsbe := hclean (fun a b => a == 1#1 && b == 0#1) rfl
  have hdue := hclean (fun _ b => b == 1#1) rfl
  unfold State.readCheck
  simp only [hsbe, hdue]
  rfl

/-- The scrubber's addresses are those of codewords. -/
theorem scrubAddr_mod (n i : Nat) : scrubAddr n i % 64 = 0 := by
  simp only [scrubAddr]
  omega

/-- The package after its scrubber has rewritten the codeword at `addr` (R484). -/
def State.rewriteCw (s : State) (addr : Nat) : State :=
  { s with mem := { s.mem with hbmSbe := sput s.mem.hbmSbe (addr / 64) 0#1 } }

theorem hbmScrubStep_spec {s : State} {st : StackId} (hup : s.stackUp st = true) (htr : (s.stack st.val).trained = true)
    (hqueue : (s.stack st.val).queue = []) (hwin : (s.stack st.val).winEnd ≤ s.rc) (hfrom : (s.stack st.val).scrubFrom ≤ s.rc)
    (hbad : sget s.mem.hbmBad (scrubAddr st.val (s.stack st.val).scrub / 64) = 0#1)
    (hsbe : sget s.mem.hbmSbe (scrubAddr st.val (s.stack st.val).scrub / 64) = 0#1)
    (hnext : (s.stack st.val).scrub + 1 < 2 ^ 30) :
    let w := s.rewriteCw (scrubAddr st.val (s.stack st.val).scrub)
    ∃ v, hbmScrubStep st s = w.withCellars v ∧
      (w.withCellars v).stack st.val = { s.stack st.val with scrub := (s.stack st.val).scrub + 1 } ∧
      ∀ n, n < 8 → n ≠ st.val → (w.withCellars v).stack n = s.stack n := by
  intro w
  have hread := s.readCheck_clean (m := s.mem) (addr := scrubAddr st.val (s.stack st.val).scrub) (n := 64)
    (srcWord 9 s.ownRank.toNat 0x7F 0 0) (fun k hlo hhi => by
      have hk : k = scrubAddr st.val (s.stack st.val).scrub / 64 := by
        have := scrubAddr_mod st.val (s.stack st.val).scrub
        unfold cdiv at hhi
        omega
      exact hk ▸ ⟨hbad, hsbe⟩)
  have hlast : ¬ (s.stack st.val).scrub + 1 = 2 ^ 30 := by omega
  have hstep : hbmScrubStep st s = w.modStack st.val fun k => { k with scrub := k.scrub + 1 } := by
    unfold hbmScrubStep
    simp only [hread, hup, htr, hqueue, Nat.not_lt.2 hwin, Nat.not_lt.2 hfrom, hlast]
    rfl
  obtain ⟨v, hv, hself, hother⟩ := w.modStack_spec st fun k => { k with scrub := k.scrub + 1 }
  exact ⟨v, hstep.trans hv, hself, hother⟩

/-- Has the scrub period of a stack passed without a complete pass? -/
def Stack.late (k : Stack) (hours : BitVec 8) (rc : Nat) : Bool :=
  k.trained && decide (k.scrubFrom + scrubPeriod hours.toNat ≤ rc)

theorem Stack.late_iff (k : Stack) (hours : BitVec 8) (rc : Nat) :
    k.late hours rc = true ↔ k.trained = true ∧ k.scrubFrom + hours.toNat * 360000000000 ≤ rc := by
  rw [Stack.late, scrubPeriod, Bool.and_eq_true, decide_eq_true_eq]

/-- A Cellar whose late stacks begin their next period (R485). -/
def Cellar.fallBehind (k : Cellar) (hours : BitVec 8) (rc : Nat) : Cellar :=
  { k with
    behind := true
    stk := k.stk.map fun t => if t.late hours rc then { t with scrubFrom := t.scrubFrom + scrubPeriod k.hours.toNat } else t }

theorem scrubBehind_eq {s : State} {c : CellarId} (hon : bit s.thr.pwr.cellar c.val = true)
    (hlate : ∃ k ∈ s.mem.cellars[c].stk.toList, k.late s.mem.cellars[c].hours s.rc = true) :
    scrubBehind c s = s.modCellar c.val (·.fallBehind s.mem.cellars[c].hours s.rc) := by
  unfold Stack.late at hlate
  have hany := List.any_eq_true.2 hlate
  rw [Fin.getElem_fin] at hany
  simp only [scrubBehind, hon, hany]
  rfl

end Sys2Proof.Machine

/-! SUPPORT. The operations of the engines (R491 to R502): what the reads and writes of a running operation leave alone. -/

namespace Sys2Proof.Machine

/-! ## What an access of an engine leaves alone -/

/-- The operations of an engine: those that wait and the one that runs. -/
def Engine.ops (e : Engine) : List EngOp × Option EngOp := (e.queue, e.cur.map (·.op))

theorem Engine.ops_modRun (e : Engine) {f : EngRun → EngRun} (hf : ∀ u, (f u).op = u.op) :
    Engine.ops { e with cur := e.cur.map f } = e.ops := by
  simp [Engine.ops, Function.comp_def, hf]

/-- The bytes of HBM and the operations of every engine. -/
def State.engOps (s : State) : SMap 8 × (CellarId → EngineKind → List EngOp × Option EngOp) :=
  (s.mem.hbm, fun c e => (s.mem.cellars[c].engine e).ops)

theorem State.engOps_of_core {s t : State} (h : t.core = s.core) : t.engOps = s.engOps :=
  show t.core.engOps = s.core.engOps from congrArg State.engOps h

theorem State.engOps_ite {p : Prop} [Decidable p] {a b s : State} (ha : a.engOps = s.engOps) (hb : b.engOps = s.engOps) :
    (if p then a else b).engOps = s.engOps := by
  split
  · exact ha
  · exact hb

/-- A fold keeps what its steps keep. -/
theorem foldl_keeps {α β γ : Type} {g : β → γ} {f : β → α → β} (hf : ∀ b a, g (f b a) = g b) (l : List α) (b : β) :
    g (l.foldl f b) = g b := by
  induction l generalizing b with
  | nil => rfl
  | cons a l ih => exact (ih (f b a)).trans (hf b a)

/-- A fold that collects values beside the package keeps what its steps keep of the package. -/
theorem foldl_snd_keeps {α β γ : Type} {g : State → γ} {f : β × State → α → β × State}
    (hf : ∀ x a, ∃ b s, f x a = (b, s) ∧ g s = g x.2) (l : List α) (x : β × State) : g (l.foldl f x).2 = g x.2 := by
  refine foldl_keeps (g := fun x : β × State => g x.2) (fun y a => ?_) l x
  obtain ⟨b, s, hstep, hs⟩ := hf y a
  exact (congrArg (fun x : β × State => g x.2) hstep).trans hs

@[simp] theorem State.engOps_modRoom (s : State) (r : RoomId) (f : Room → Room) : (s.modRoom r f).engOps = s.engOps := rfl

theorem State.engOps_modCellar (s : State) (n : Nat) {f : Cellar → Cellar}
    (hf : ∀ k e, ((f k).engine e).ops = (k.engine e).ops) : (s.modCellar n f).engOps = s.engOps := by
  by_cases hn : n < 4
  · obtain ⟨v, hv, hself, hother⟩ := s.modCellar_spec ⟨n, hn⟩ f
    refine (congrArg State.engOps hv).trans (Prod.ext rfl (funext fun d => funext fun e => ?_))
    change (v[d].engine e).ops = _
    by_cases hd : d = ⟨n, hn⟩
    · rw [hd, hself, hf]
      rfl
    · rw [hother d hd]
      rfl
  · exact congrArg State.engOps (dif_neg hn)

/-- A change of the operation that an engine runs, which keeps what operation it is. -/
theorem State.engOps_modRun (s : State) (n : Nat) (xpose : Bool) {f : EngRun → EngRun} (hf : ∀ u, (f u).op = u.op) :
    (s.modCellar n fun k => if xpose then { k with xpose := { k.xpose with cur := k.xpose.cur.map f } }
      else { k with gs := { k.gs with cur := k.gs.cur.map f } }).engOps = s.engOps := by
  refine s.engOps_modCellar n fun k e => ?_
  cases xpose <;> cases e <;> simp [Cellar.engine, Engine.ops_modRun _ hf]

theorem State.engOps_modStack (s : State) (n : Nat) (f : Stack → Stack) : (s.modStack n f).engOps = s.engOps := by
  refine s.engOps_modCellar (n / 2) fun k e => ?_
  rw [dif_pos (Nat.mod_lt _ (by decide))]
  rfl

theorem State.engOps_readCheck (s : State) (m : Mem) (addr n : Nat) (src : BitVec 64) :
    (s.readCheck m addr n src).2.engOps = s.engOps := by
  unfold State.readCheck
  simp only
  split <;> split
  · rfl
  · exact State.engOps_modCellar _ _ fun _ _ => by rfl
  · exact (State.engOps_of_core (State.core_report ..)).trans (State.engOps_modCellar _ _ fun _ _ => by rfl)
  · exact (State.engOps_of_core (State.core_report ..)).trans
      ((State.engOps_modCellar _ _ fun _ _ => by rfl).trans (State.engOps_modCellar _ _ fun _ _ => by rfl))

theorem State.core_smokeRep (s : State) (room : Option RoomId) (check : Nat) (t u : BitVec 16) (d : Nat) :
    (s.smokeRep room check t u d).core = s.core := by
  obtain ⟨k, hk⟩ := s.smokeRep_eq room check t u d
  rw [hk]
  rfl

theorem State.core_smokeStale (s : State) (a : Nat) (tag : BitVec 16) : (s.smokeStale a tag).core = s.core :=
  State.core_ite rfl <|
    (foldl_keeps (fun t _ => t.core_smokeRep ..) _ _).trans <|
      foldl_keeps (fun t _ => foldl_keeps (fun u _ => u.core_smokeRep ..) _ t) _ s

/-! ## Reads and writes of an engine (R493, R499, R500) -/

theorem engOps_engineRead (xpose : Bool) (n : Nat) (o : EngOp) (t : Stream) (comp : SMap 8) (m : Mem) (a len : Nat)
    (s : State) : (engineRead xpose n o t comp m a len s).2.engOps = s.engOps := by
  unfold engineRead
  simp only
  split
  · rfl
  split
  · rfl
  split
  · split
    · rfl
    · rfl
  · exact (State.engOps_modRun _ n xpose fun _ => by rfl).trans (s.engOps_readCheck ..)

theorem engOps_engineReadRange (xpose : Bool) (n : Nat) (o : EngOp) (t : Stream) (comp : SMap 8) (m : Mem) (a len : Nat)
    (s : State) : (engineReadRange xpose n o t comp m a len s).2.engOps = s.engOps :=
  foldl_snd_keeps (fun _ _ => ⟨_, _, rfl, engOps_engineRead ..⟩) _ _

theorem engOps_engineWrite (xpose : Bool) (n : Nat) (o : EngOp) (t : Stream) (comp : SMap 8) (a : Nat) (data : Bytes)
    (poison : Bool) (s : State) : (engineWrite xpose n o t comp a data poison s).engOps = s.engOps := by
  have hstale : (s.smokeStale a (tagOf o.word)).engOps = s.engOps := State.engOps_of_core (s.core_smokeStale ..)
  have hpal (use : PUse) (addr : Nat) (d : Bytes) :
      ((s.smokeStale a (tagOf o.word)).palReq use 2 addr true d poison).engOps = s.engOps :=
    (State.engOps_of_core (State.core_palReq ..)).trans hstale
  refine State.engOps_ite rfl (State.engOps_ite rfl (State.engOps_ite (State.engOps_ite (hpal ..) ?companion) ?hbm))
  case companion => exact (State.engOps_modRun _ n xpose fun _ => by rfl).trans (hpal ..)
  case hbm => exact (State.engOps_modRun _ n xpose fun _ => by rfl).trans ((State.engOps_modStack ..).trans hstale)

/-! ## Operations (R495, R497 to R499) -/

theorem engOps_xposeRun (n : Nat) (o : EngOp) (comp : SMap 8) (s : State) : (xposeRun n o comp s).engOps = s.engOps := by
  refine (State.engOps_modRun _ n true fun _ => by rfl).trans ?_
  refine (foldl_keeps (fun t j => foldl_keeps (fun u l => ?write) _ t) _ _).trans ?_
  · exact engOps_engineWrite ..
  exact foldl_snd_keeps (fun _ _ => ⟨_, _, rfl, engOps_engineReadRange ..⟩) _ _

theorem engOps_engineIdx (n : Nat) (o : EngOp) (comp : SMap 8) (m : Mem) (s : State) :
    (engineIdx n o comp m s).2.engOps = s.engOps := by
  have hread := engOps_engineReadRange false n o (streamOf o.desc2) comp m (streamOf o.desc2).haddr
    (4 * (streamOf o.desc).nrows) s
  unfold engineIdx
  simp only
  split
  · exact hread
  · exact hread

theorem engOps_gatherRun (n : Nat) (o : EngOp) (comp : SMap 8) (s : State) : (gatherRun n o comp s).engOps = s.engOps := by
  refine (State.engOps_modRun _ n false fun _ => by rfl).trans ?_
  refine (foldl_keeps (fun t i => foldl_keeps (fun u j => ?_) _ t) _ _).trans (engOps_engineIdx ..)
  exact (State.engOps_modRoom ..).trans (engOps_engineRead ..)

theorem engOps_scatterRun (n : Nat) (o : EngOp) (comp : SMap 8) (s : State) :
    (scatterRun n o comp s).engOps = s.engOps :=
  (State.engOps_modRun _ n false fun _ => by rfl).trans (engOps_engineIdx ..)

/-! ## The start and the end of an operation (R492, R501) -/

theorem Cellar.engine_setEngine (k : Cellar) (e : EngineKind) (x : Engine) : (k.setEngine e x).engine e = x := by
  cases e <;> rfl

theorem Engine.ops_eq_iff (e : Engine) (q : List EngOp) (o : EngOp) :
    e.ops = (q, some o) ↔ e.queue = q ∧ ∃ u, e.cur = some u ∧ u.op = o := by
  simp [Engine.ops]

/-- An operation that an engine begins. -/
def EngRun.new (o : EngOp) : EngRun := { op := o, rows := [], out := 0, cmps := 0, bits := 0, gran := [] }

theorem engineOpStart_engOps {s : State} {c : CellarId} {e : EngineKind} {o : EngOp} {rest : List EngOp} (comp : SMap 8)
    (hon : bit s.thr.pwr.cellar c.val = true) (hcur : (s.mem.cellars[c].engine e).cur = none)
    (hqueue : (s.mem.cellars[c].engine e).queue = o :: rest) :
    (engineOpStart c e comp s).engOps =
      (s.modCellar c.val fun k => k.setEngine e { queue := rest, cur := some (EngRun.new o) }).engOps := by
  rw [Fin.getElem_fin] at hcur hqueue
  simp only [engineOpStart, hcur, hqueue, hon]
  simp only [Bool.not_true, Bool.false_eq_true, if_false]
  split
  · exact engOps_xposeRun ..
  split
  · exact engOps_gatherRun ..
  · exact engOps_scatterRun ..

/-- A Cellar in which an engine has completed its operation. -/
def Cellar.endOp (k : Cellar) (e : EngineKind) : Cellar :=
  { k.setEngine e { k.engine e with cur := none } with opsDone := satAdd k.opsDone 1 }

theorem Cellar.cur_endOp (k : Cellar) (e : EngineKind) : ((k.endOp e).engine e).cur = none := by
  cases e <;> rfl

theorem engineOpComplete_eq {s : State} {c : CellarId} {e : EngineKind} {u : EngRun} {g : RoomEng}
    (hcur : (s.mem.cellars[c].engine e).cur = some u) (hrows : u.rows = []) (hout : u.out = 0) (hcmps : u.cmps = 0)
    (heng : (s.room u.op.room).dw.eng = some g) (hdlen : g.dlen = false) :
    engineOpComplete c e s = (s.modCellar c.val (·.endOp e)).modRoom u.op.room fun rm =>
      { rm with dw := { rm.dw with eng := none } } := by
  obtain ⟨v, hv, -⟩ := s.modCellar_spec c (·.endOp e)
  unfold Cellar.endOp at hv ⊢
  have hroom : ((s.withCellars v).room u.op.room).dw.eng = some g := heng
  rw [Fin.getElem_fin] at hcur
  simp only [engineOpComplete, hcur, hrows, hout, hcmps, hv, hroom, hdlen]
  rfl

/-! ## The obligation -/

/-- Settles O32: by what a change of one Cellar, of one stack and of the operation of an engine leaves alone. -/
theorem refreshScrubAndEngines : Obligations.RefreshScrubAndEngines := by
  refine ⟨fun s => ⟨fixedWindow_opens, fun st hup => ⟨fun hdue => ?extra, fun temp => ?temp, fun hle => ?level⟩⟩,
    fun s => ⟨fun st hup htr hqueue hwin hfrom hbad hsbe hnext => ?scrub, fun c hon hlate => ?behind,
      fun c e o rest comp hon hcur hqueue => ?start, fun c e u g hcur hrows hout hcmps heng hdlen => ?complete⟩⟩
  case extra =>
    obtain ⟨v, hv, hself⟩ := extraRefreshWindow_spec hup hdue
    exact ⟨_, exec_eq_next rfl hv rfl, rfl, rfl, hself⟩
  case temp =>
    obtain ⟨v, hv, hself, hother⟩ := s.modStack_spec st fun k => { k with temp := temp }
    exact ⟨_, exec_eq_next rfl ((stackTempRead_eq temp hup).trans hv) rfl, rfl, hself, hother⟩
  case level =>
    obtain ⟨t, hexec, hrooms, hother, hlevel⟩ := refreshLevel_follows hup
    refine ⟨t, hexec, hrooms, hother, ?_⟩
    rw [hlevel]
    exact nextLevel_bounds hle _
  case scrub =>
    obtain ⟨v, hv, hself, hother⟩ := hbmScrubStep_spec hup htr hqueue hwin hfrom hbad hsbe hnext
    exact ⟨_, exec_eq_next rfl hv rfl, rfl, rfl, rfl, hself, hother⟩
  case behind =>
    obtain ⟨v, hv, hself, hother⟩ := s.modCellar_spec c (·.fallBehind s.mem.cellars[c].hours s.rc)
    have heq := scrubBehind_eq hon (by simpa only [Stack.late_iff] using hlate)
    exact ⟨_, exec_eq_next rfl (heq.trans hv) rfl, rfl, congrArg Cellar.behind hself, rfl, hother⟩
  case start =>
    obtain ⟨v, hv, hself, -⟩ := s.modCellar_spec c fun k => k.setEngine e { queue := rest, cur := some (EngRun.new o) }
    have hops := (engineOpStart_engOps comp hon hcur hqueue).trans (congrArg State.engOps hv)
    have heng : (v[c].engine e).ops = (rest, some o) := by
      rw [hself, Cellar.engine_setEngine]
      rfl
    obtain ⟨hrest, u, hu, hop⟩ := (Engine.ops_eq_iff ..).1
      ((congrFun (congrFun (congrArg Prod.snd hops) c) e).trans heng)
    exact ⟨_, u, rfl, hrest, hu, hop, congrArg Prod.fst hops⟩
  case complete =>
    obtain ⟨v, hv, hself, -⟩ := s.modCellar_spec c (·.endOp e)
    have heq := engineOpComplete_eq hcur hrows hout hcmps heng hdlen
    rw [hv] at heq
    have hended : (v[c].engine e).cur = none := by rw [hself, Cellar.cur_endOp]
    exact ⟨_, exec_eq_next rfl heq rfl, hended, (congrArg Cellar.opsDone hself :), State.room_modRoom ..,
      fun k hk => State.room_setRoom_ne _ _ k _ hk⟩

end Sys2Proof.Machine
